-- ==== Sys2Proof/Word.lean ====
section
/-! DEFINITION. The word type of the machine (00_scope.md R8, R12): W = 32, bit 0 the least significant. -/

namespace Sys2Proof

/-- A register word, command word or bus datum: 32 bits (00_scope.md R8). -/
abbrev Word := BitVec 32

/-- A register word index on the bus: the 4-bit addr port (20_memory.md R50, 10_state.md R20). -/
abbrev RegIndex := BitVec 4

end Sys2Proof
end

