-- ==== Sys2Proof/Syntax.lean ====
section
/-! DEFINITION. The command set, one constructor per row of spec/opcode_table.json (30_encoding.md R72), and the one
command format CMD-32 as a record of its two fields (R70). -/

namespace Sys2Proof

/-- The eight commands (00_scope.md R3). None has an immediate field (30_encoding.md R73). -/
inductive Instr where
  | nop
  | egcd
  | modinv
  | keyset
  | encIdx
  | decIdx
  | encChar
  | decChar
deriving DecidableEq, Repr

/-- The fields of format CMD-32 (30_encoding.md R70): RSVD in bits 31..4, OPC in bits 3..0. -/
structure CmdFields where
  rsvd : BitVec 28
  opc : BitVec 4
deriving DecidableEq, Repr

/-- The mnemonic the opcode map gives a command (30_encoding.md R72). -/
def Instr.mnemonic (i : Instr) : String :=
  match i with
  | .nop => "NOP"
  | .egcd => "EGCD"
  | .modinv => "MODINV"
  | .keyset => "KEYSET"
  | .encIdx => "ENC_IDX"
  | .decIdx => "DEC_IDX"
  | .encChar => "ENC_CHAR"
  | .decChar => "DEC_CHAR"

end Sys2Proof
end

