-- ==== Sys2Proof/WellFormed.lean ====
section
/-! DEFINITION. When the two fields of a command word are in range (30_encoding.md R70, R75). The commands have no
operand fields, so every constructor of Instr is well formed; what can be ill formed is a command WORD. -/

namespace Sys2Proof

/-- RSVD must be 0 (30_encoding.md R70). -/
def CmdFields.rsvdOk (f : CmdFields) : Bool := f.rsvd == 0#28

/-- OPC must be one of 0 to 7 (30_encoding.md R72, R75). -/
def CmdFields.opcOk (f : CmdFields) : Bool := decide (f.opc.toNat < 8)

/-- A command word is legal exactly when both fields are in range (30_encoding.md R75). -/
def CmdFields.wellFormed (f : CmdFields) : Bool := f.rsvdOk && f.opcOk

/-- The fields of a command's word (30_encoding.md R72: the word of a legal command is 0x0000000N). -/
def Instr.fields (i : Instr) : CmdFields :=
  match i with
  | .nop => ⟨0#28, 0#4⟩
  | .egcd => ⟨0#28, 1#4⟩
  | .modinv => ⟨0#28, 2#4⟩
  | .keyset => ⟨0#28, 3#4⟩
  | .encIdx => ⟨0#28, 4#4⟩
  | .decIdx => ⟨0#28, 5#4⟩
  | .encChar => ⟨0#28, 6#4⟩
  | .decChar => ⟨0#28, 7#4⟩

/-- A command is well formed when the fields of its word are. -/
def Instr.wellFormed (i : Instr) : Bool := i.fields.wellFormed

end Sys2Proof
end

