-- ==== Sys2Proof/Decode.lean ====
section
/-! DEFINITION. Decoding of a command word, total on all 2^32 words (30_encoding.md R70, R75, R79), the encoder, and the
printer of a command word (R79). -/

namespace Sys2Proof

/-- Why a word is illegal: the two causes of 30_encoding.md R75. -/
inductive IllegalWord where
  /-- bits 31..4 are not all 0, whatever OPC holds -/
  | reservedBitsSet
  /-- bits 31..4 are 0 and OPC is one of 8 to 15 -/
  | opcodeOutOfRange
deriving DecidableEq, Repr

/-- The one verdict of a command word (30_encoding.md R79). -/
inductive Verdict where
  | legal (i : Instr)
  | illegal (why : IllegalWord)
deriving DecidableEq, Repr

/-- The two fields of a word (30_encoding.md R70). -/
def fieldsOf (w : Word) : CmdFields := ⟨w.extractLsb' 4 28, w.extractLsb' 0 4⟩

/-- The opcode map (30_encoding.md R72). -/
def opcodeMap (opc : BitVec 4) : Option Instr :=
  match opc.toNat with
  | 0 => some .nop
  | 1 => some .egcd
  | 2 => some .modinv
  | 3 => some .keyset
  | 4 => some .encIdx
  | 5 => some .decIdx
  | 6 => some .encChar
  | 7 => some .decChar
  | _ => none

/-- Decoding (30_encoding.md R70): the reserved bits first, then the opcode. -/
def decode (w : Word) : Verdict :=
  if (fieldsOf w).rsvdOk then
    match opcodeMap (fieldsOf w).opc with
    | some i => .legal i
    | none => .illegal .opcodeOutOfRange
  else .illegal .reservedBitsSet

/-- The word of two fields: RSVD above OPC (30_encoding.md R70). -/
def wordOf (f : CmdFields) : Word := f.rsvd ++ f.opc

/-- The word of a command (30_encoding.md R72). -/
def encode (i : Instr) : Word := wordOf i.fields

/-- One upper-case hex digit (the letter case is a DESIGN CHOICE, log 13). -/
def hexDigit (n : BitVec 4) : Char :=
  if n.toNat < 10 then Char.ofNat (48 + n.toNat) else Char.ofNat (55 + n.toNat)

/-- The eight hex digits of a word, most significant first. -/
def hexDigits (w : Word) : List Char :=
  [hexDigit (w.extractLsb' 28 4), hexDigit (w.extractLsb' 24 4), hexDigit (w.extractLsb' 20 4),
   hexDigit (w.extractLsb' 16 4), hexDigit (w.extractLsb' 12 4), hexDigit (w.extractLsb' 8 4),
   hexDigit (w.extractLsb' 4 4), hexDigit (w.extractLsb' 0 4)]

/-- How a command word prints (30_encoding.md R79): a legal word as its mnemonic, any other as CMD 0x and eight hex
digits, with the mark that it is illegal. -/
def printWord (w : Word) : String × Bool :=
  match decode w with
  | .legal i => (i.mnemonic, true)
  | .illegal _ => ("CMD 0x" ++ String.ofList (hexDigits w), false)

/-- The command this decoder reads from an opcode-table row's bits w (nbits of them, 32 for every row of this table;
a command is exactly one 32-bit word, 30_encoding.md R71, so bits above 32 make it no command). -/
def decodeTableWord (nbits w : Nat) : Option Instr :=
  if w % 2 ^ nbits < 2 ^ 32 then
    match decode (BitVec.ofNat 32 (w % 2 ^ nbits)) with
    | .legal i => some i
    | .illegal _ => none
  else none

end Sys2Proof
end

