-- ==== Sys2Proof/Config.lean ====
section
/-! DEFINITION. What the spec leaves OPEN: parameters without a body, so that no proof can see a value of one. -/

namespace Sys2Proof

/-- LAT - 1 of an accepted command: how many edges pass between the accepting edge and the completing edge
(00_scope.md R9, 70_reset_and_hazards.md R205: open, at least 1, finite, may differ between commands and operand
values). The first argument is the number of commands accepted before, so that two issues of one command with the
same snapshot may take different times; the others are the snapshot. DESIGN CHOICE, log 1. -/
opaque Config.latencyBeyondOne (accepted : Nat) (cmd a b ka kb ki : Word) (kv : Bool) : Nat

/-- MIE_BASE, the platform's base address of an integration (20_memory.md R52, D33). No rule of the block reads it. -/
opaque Config.mieBase : Nat

/-- MIE_IRQ_LINE, the platform's interrupt line (60_exceptions.md R171, D18). No rule of the block reads it. -/
opaque Config.mieIrqLine : Nat

end Sys2Proof
end

