-- ==== Sys2Proof/Machine/State.lean ====
section
/-! DEFINITION. The state of the MIE as plain data (10_state.md R20-R40), the labels of an edge (20_memory.md R51), the
fault and refusal names, and the reset state (70_reset_and_hazards.md R190). -/

namespace Sys2Proof.Machine

/-- ERRCODE values (10_state.md R24). The reserved codes 5-15 are never produced and have no constructor (log 9). -/
inductive ErrCode where
  | none
  | invalidKey
  | zeroModulus
  | illegalCmd
  | overflow
deriving DecidableEq, Repr

/-- The snapshot of an in-flight command, seven fields (10_state.md R32). -/
structure Snapshot where
  cmd : Word
  a : Word
  b : Word
  ka : Word
  kb : Word
  ki : Word
  kv : Bool
deriving DecidableEq, Repr

/-- The command sequencer (10_state.md R31). `left` is the model's own: how many edges still pass before the completing
edge, 0 when the command completes at the next edge (log 1). -/
inductive Seq where
  | idle
  | busy (snap : Snapshot) (left : Nat)
deriving DecidableEq, Repr

/-- What the host does at one edge (20_memory.md R51). -/
inductive HostAction where
  /-- None: no access -/
  | noAccess
  /-- the host samples rdata with addr = i -/
  | read (i : RegIndex)
  /-- we = 1, addr = i, wdata = v -/
  | write (i : RegIndex) (v : Word)
deriving DecidableEq, Repr

/-- The label of one rising edge, as far as the outside chooses it (20_memory.md R51): the rst pin and the host action. -/
structure Edge where
  rst : Bool
  act : HostAction
deriving DecidableEq, Repr

/-- The whole state: the spec's registers and sequencer, and the model's own two fields `edges` and `accepted`
(log 1, log 2). STATUS.BUSY and STATUS.ERR are computed from `seq` and `errcode` (log 8). -/
structure State where
  /-- CTRL.IE (R22) -/
  ie : Bool
  /-- STATUS.DONE (R23) -/
  done : Bool
  /-- STATUS.DROP (R23) -/
  drop : Bool
  /-- STATUS.ERRCODE (R23, R24) -/
  errcode : ErrCode
  /-- STATUS.KEYV (R36) -/
  keyv : Bool
  /-- OPA (R26) -/
  opa : Word
  /-- OPB (R27) -/
  opb : Word
  /-- RES0 (R28) -/
  res0 : Word
  /-- RES1 (R29) -/
  res1 : Word
  /-- RES2 (R30) -/
  res2 : Word
  /-- KEYA (R33) -/
  keya : Word
  /-- KEYB (R34) -/
  keyb : Word
  /-- KEYINV (R35) -/
  keyinv : Word
  /-- the command sequencer and the snapshot (R31, R32) -/
  seq : Seq
  /-- the model's own: the labels of the coming edges, the next one first (log 2) -/
  edges : List Edge
  /-- the model's own: how many commands were accepted, for the free latency value (log 1) -/
  accepted : Nat
deriving DecidableEq, Repr

/-- The faults of the model. -/
inductive Fault where
  /-- Raised by the meaning of every command when the sequencer is IDLE: the spec gives a completion from BUSY(s) only
  (10_state.md R31, "No other transition exists."). No step reaches it. Safe: the model stops and claims nothing (log 5). -/
  | noCommandInFlight
deriving DecidableEq, Repr

/-- The refusals of the model. -/
inductive Refusal where
  /-- A command without a meaning, rejected by name in exec's arm; no arm of this model does so. Safe. -/
  | notModelled (mnemonic : String)
deriving DecidableEq, Repr

/-- The reset state (70_reset_and_hazards.md R190). The model's own fields: no edge label pending, no command accepted
(DESIGN CHOICE, log 7). -/
def State.reset : State where
  ie := false
  done := false
  drop := false
  errcode := .none
  keyv := false
  opa := 0#32
  opb := 0#32
  res0 := 0#32
  res1 := 0#32
  res2 := 0#32
  keya := 0#32
  keyb := 0#32
  keyinv := 0#32
  seq := .idle
  edges := []
  accepted := 0

end Sys2Proof.Machine
end

