-- ==== Sys2Proof/Machine/Flags.lean ====
section
/-! DEFINITION. The status word and its fields (10_state.md R22-R24), the ID constant (R21), and the irq output
(60_exceptions.md R170). -/

namespace Sys2Proof.Machine

/-- The 4-bit code of ERRCODE (10_state.md R24). -/
def ErrCode.bits (e : ErrCode) : BitVec 4 :=
  match e with
  | .none => 0#4
  | .invalidKey => 1#4
  | .zeroModulus => 2#4
  | .illegalCmd => 3#4
  | .overflow => 4#4

/-- STATUS.BUSY: 1 exactly when seq = BUSY(_) (10_state.md R31). -/
def State.busy (s : State) : Bool :=
  match s.seq with
  | .idle => false
  | .busy _ _ => true

/-- STATUS.ERR, the mirror ERRCODE != 0 (10_state.md R23). -/
def State.err (s : State) : Bool := s.errcode.bits != 0#4

/-- Whether the engine completes the command in flight at the coming edge (20_memory.md R51, R56): when no edge is left
to wait (log 1). -/
def State.completes (s : State) : Bool :=
  match s.seq with
  | .idle => false
  | .busy _ 0 => true
  | .busy _ (_ + 1) => false

/-- The word CTRL reads as (10_state.md R22). -/
def State.ctrlWord (s : State) : Word := 0#31 ++ BitVec.ofBool s.ie

/-- The word STATUS reads as (10_state.md R23): KEYV [8], ERRCODE [7:4], DROP [3], ERR [2], DONE [1], BUSY [0]. -/
def State.statusWord (s : State) : Word :=
  0#23 ++ BitVec.ofBool s.keyv ++ s.errcode.bits ++ BitVec.ofBool s.drop ++ BitVec.ofBool s.err ++
    BitVec.ofBool s.done ++ BitVec.ofBool s.busy

/-- The constant ID: TAG 0x4D4945 "MIE", VERSION 0x01 (10_state.md R21). -/
def idWord : Word := 0x4D4945#24 ++ 0x01#8

/-- The irq output (60_exceptions.md R170, 10_state.md R40). -/
def State.irq (s : State) : Bool := s.ie && s.done

end Sys2Proof.Machine
end

