-- ==== Sys2Proof/Machine/Operands.lean ====
section
/-! DEFINITION. The integer primitives of 00_scope.md R13, R14 and the operand and result conversions of 30_encoding.md
R73, R74; the constants of the affine datapath (00_scope.md R10). -/

namespace Sys2Proof.Machine

/-- sext_32 (00_scope.md R13): the signed reading of a word. -/
def sext32 (w : Word) : Int := w.toInt

/-- zext_32 (00_scope.md R13): the unsigned reading of a word. -/
def zext32 (w : Word) : Int := (w.toNat : Int)

/-- word(n) (00_scope.md R13): the word congruent to n modulo 2^32. The spec defines it for n in [-2^31, 2^32 - 1]; no
rule uses it elsewhere (log 10). -/
def word (n : Int) : Word := BitVec.ofInt 32 n

/-- fits32 (00_scope.md R13). -/
def fits32 (n : Int) : Bool := decide (-2147483648 ≤ n ∧ n ≤ 2147483647)

/-- fdiv (00_scope.md R14): the quotient rounded toward negative infinity; never applied with d = 0 (log 10). -/
def fdiv (n d : Int) : Int := Int.fdiv n d

/-- fmod (00_scope.md R14): n - d * fdiv(n, d); never applied with d = 0 (log 10). -/
def fmod (n d : Int) : Int := n - d * fdiv n d

/-- The modulus of the affine datapath (00_scope.md R10). -/
abbrev modulus : Int := 26

/-- CLASS (41_affine_datapath.md R128): the base of a letter's class, none for every other 32-bit code. -/
def charClass (c : Int) : Option Int :=
  if 0x41 ≤ c ∧ c ≤ 0x5A then some 65
  else if 0x61 ≤ c ∧ c ≤ 0x7A then some 97
  else none

end Sys2Proof.Machine
end

