-- ==== Sys2Proof/Machine/Ops.lean ====
section
/-! DEFINITION. The shared operations: the register map and the bus read and write (20_memory.md R54, R55), command issue
(R57), the common completion with its error outcome (42_control.md R151, R152: the MIE's whole form of taking an
exception, 60_exceptions.md R164), and the reset edge (70_reset_and_hazards.md R190, R191). -/

namespace Sys2Proof.Machine

/-! ## The register map -/

/-- The named registers (10_state.md R20); indexes 12-15 are reserved and name none. -/
inductive Reg where
  | id | ctrl | status | cmd | opa | opb | res0 | res1 | res2 | keya | keyb | keyinv
deriving DecidableEq, Repr

/-- The register at a word index, none at the reserved indexes 12-15 (10_state.md R20, R38). -/
def regAt (i : RegIndex) : Option Reg :=
  match i.toNat with
  | 0 => some .id
  | 1 => some .ctrl
  | 2 => some .status
  | 3 => some .cmd
  | 4 => some .opa
  | 5 => some .opb
  | 6 => some .res0
  | 7 => some .res1
  | 8 => some .res2
  | 9 => some .keya
  | 10 => some .keyb
  | 11 => some .keyinv
  | _ => none

/-- The word index of a register (10_state.md R20). -/
def Reg.index (r : Reg) : RegIndex :=
  match r with
  | .id => 0#4
  | .ctrl => 1#4
  | .status => 2#4
  | .cmd => 3#4
  | .opa => 4#4
  | .opb => 5#4
  | .res0 => 6#4
  | .res1 => 7#4
  | .res2 => 8#4
  | .keya => 9#4
  | .keyb => 10#4
  | .keyinv => 11#4

/-- The byte offset of an index in a byte-addressed integration (10_state.md R20, 20_memory.md R52). -/
def byteOffset (i : RegIndex) : Nat := 4 * i.toNat

/-- The byte address of an index in an integration at MIE_BASE (20_memory.md R52). -/
def byteAddress (i : RegIndex) : Nat := Config.mieBase + byteOffset i

/-! ## Reading -/

/-- The value a register reads as (20_memory.md R54): CMD reads 0 (10_state.md R25). -/
def State.readReg (s : State) (r : Reg) : Word :=
  match r with
  | .id => idWord
  | .ctrl => s.ctrlWord
  | .status => s.statusWord
  | .cmd => 0#32
  | .opa => s.opa
  | .opb => s.opb
  | .res0 => s.res0
  | .res1 => s.res1
  | .res2 => s.res2
  | .keya => s.keya
  | .keyb => s.keyb
  | .keyinv => s.keyinv

/-- The rdata output for an addr (20_memory.md R54): MemRead(i, 4) of 00_scope.md R16. Reserved indexes read 0. -/
def State.rdata (s : State) (i : RegIndex) : Word :=
  match regAt i with
  | some r => s.readReg r
  | none => 0#32

/-- The word a host samples at an edge with this action, from the pre-edge state (20_memory.md R51: a write edge shows
the pre-edge value of the register at addr). -/
def HostAction.sampled (act : HostAction) (s : State) : Option Word :=
  match act with
  | .noAccess => none
  | .read i => some (s.rdata i)
  | .write i _ => some (s.rdata i)

/-- The label that the input ports rst, we, addr, wdata make (20_memory.md R50). With we = 0 the block cannot tell a
read from no access, and a read has no side effects (R54); the label is then a read (log 12). -/
def Edge.ofPorts (rst we : Bool) (addr : RegIndex) (wdata : Word) : Edge :=
  ⟨rst, if we then .write addr wdata else .read addr⟩

/-! ## The labels of the coming edges (the model's own field) -/

/-- The edge at which nothing happens from outside: rst = 0 and no host access. -/
def Edge.quiet : Edge := ⟨false, .noAccess⟩

/-- The label of the coming edge; with no label left it is the quiet edge (log 3). -/
def State.nextEdge (s : State) : Edge :=
  match s.edges with
  | [] => .quiet
  | e :: _ => e

/-- The coming edge has passed. -/
def State.popEdge (s : State) : State := { s with edges := s.edges.tail }

/-- A label put in front: it becomes the coming edge. -/
def State.pushEdge (s : State) (e : Edge) : State := { s with edges := e :: s.edges }

/-! ## Single register updates -/

/-- A CTRL write (10_state.md R22): IE <- v[0], the other bits discarded. -/
def State.setCtrl (s : State) (v : Word) : State := { s with ie := v.getLsbD 0 }

/-- DONE <- 0 (10_state.md R23). -/
def State.clearDone (s : State) : State := { s with done := false }

/-- DROP <- 1 (20_memory.md R57). -/
def State.setDrop (s : State) : State := { s with drop := true }

/-- OPA <- v (20_memory.md R55). -/
def State.setOpa (s : State) (v : Word) : State := { s with opa := v }

/-- OPB <- v (20_memory.md R55). -/
def State.setOpb (s : State) (v : Word) : State := { s with opb := v }

/-- The sequencer's new value (10_state.md R31). -/
def State.setSeq (s : State) (q : Seq) : State := { s with seq := q }

/-! ## Command issue -/

/-- The snapshot latched from the pre-edge registers (10_state.md R32). -/
def State.latch (s : State) (v : Word) : Snapshot :=
  ⟨v, s.opa, s.opb, s.keya, s.keyb, s.keyinv, s.keyv⟩

/-- LAT - 1 of a command accepted now: the free value (00_scope.md R9, log 1). -/
def State.freeLatency (s : State) (v : Word) : Nat :=
  Config.latencyBeyondOne s.accepted v s.opa s.opb s.keya s.keyb s.keyinv s.keyv

/-- Acceptance (20_memory.md R57): the sequencer goes BUSY with the snapshot; DONE, ERRCODE and DROP are cleared. -/
def State.accept (s : State) (snap : Snapshot) (left : Nat) : State :=
  { s with
    seq := .busy snap left
    done := false
    errcode := .none
    drop := false }

/-- One more command was accepted (the model's own counter, log 1). -/
def State.countAccepted (s : State) : State := { s with accepted := s.accepted + 1 }

/-- Command issue (20_memory.md R57), judged on the pre-edge state σ and applied to t: accepted if σ is IDLE, dropped if
it is BUSY. -/
def issue (σ : State) (v : Word) (t : State) : State :=
  match σ.seq with
  | .idle => (t.accept (σ.latch v) (σ.freeLatency v)).countAccepted
  | .busy _ _ => t.setDrop

/-! ## The host action -/

/-- A host write (20_memory.md R55), judged on the pre-edge state σ and applied to t (R56 step 3): MemWrite(i, 4, v) of
00_scope.md R16. -/
def hostWrite (σ : State) (i : RegIndex) (v : Word) (t : State) : State :=
  match regAt i with
  | some .ctrl => t.setCtrl v
  | some .status => if v.getLsbD 1 && !σ.completes then t.clearDone else t
  | some .cmd => issue σ v t
  | some .opa => t.setOpa v
  | some .opb => t.setOpb v
  | some .id => t
  | some .res0 => t
  | some .res1 => t
  | some .res2 => t
  | some .keya => t
  | some .keyb => t
  | some .keyinv => t
  | none => t

/-- The host action of an edge (20_memory.md R56 step 3). Reads change nothing (R54). -/
def hostAccess (σ : State) (act : HostAction) (t : State) : State :=
  match act with
  | .noAccess => t
  | .read _ => t
  | .write i v => hostWrite σ i v t

/-! ## The common completion -/

/-- A whole new key (41_affine_datapath.md R121: KEYA, KEYB, KEYINV and KEYV change together). -/
structure KeyWrite where
  keya : Word
  keyb : Word
  keyinv : Word
  keyv : Bool
deriving DecidableEq, Repr

/-- The register writes of a successful command (10_state.md R39); none means the register keeps its value. -/
structure Writes where
  res0 : Option Word
  res1 : Option Word
  res2 : Option Word
  key : Option KeyWrite
deriving DecidableEq, Repr

/-- No data or key register written. -/
def Writes.nothing : Writes := ⟨none, none, none, none⟩

/-- RES0 alone written. -/
def Writes.res0Only (w : Word) : Writes := ⟨some w, none, none, none⟩

/-- The three results of EGCD. -/
def Writes.results (g x y : Word) : Writes := ⟨some g, some x, some y, none⟩

/-- The key alone written. -/
def Writes.keyOnly (k : KeyWrite) : Writes := ⟨none, none, none, some k⟩

/-- The outcome of a command's rule: Ok(writes) or Err(code) (42_control.md R151). -/
inductive CmdOutcome where
  | ok (w : Writes)
  | err (code : ErrCode)
deriving DecidableEq, Repr

/-- The key of a state as one record. -/
def State.key (s : State) : KeyWrite := ⟨s.keya, s.keyb, s.keyinv, s.keyv⟩

/-- The register writes applied (42_control.md R151). -/
def State.applyWrites (s : State) (w : Writes) : State :=
  { s with
    res0 := w.res0.getD s.res0
    res1 := w.res1.getD s.res1
    res2 := w.res2.getD s.res2
    keya := (w.key.getD s.key).keya
    keyb := (w.key.getD s.key).keyb
    keyinv := (w.key.getD s.key).keyinv
    keyv := (w.key.getD s.key).keyv }

/-- The status effects of every completion (42_control.md R151): ERRCODE <- code, BUSY <- 0, DONE <- 1, seq <- IDLE. -/
def State.finish (s : State) (code : ErrCode) : State :=
  { s with
    errcode := code
    done := true
    seq := .idle }

/-- An error completion, raise Error(code) (42_control.md R152, 60_exceptions.md R164): only ERRCODE, BUSY, DONE and seq
change. This is the MIE's whole form of an exception; no state is saved and control goes nowhere. -/
def State.raiseError (s : State) (code : ErrCode) : State := s.finish code

/-- The common completion of an outcome (42_control.md R151). -/
def State.retire (s : State) (o : CmdOutcome) : State :=
  match o with
  | .ok w => (s.applyWrites w).finish .none
  | .err code => s.raiseError code

/-- The completion of the command in flight by a command's rule, from its snapshot alone (42_control.md R151). In IDLE
there is no command to complete (10_state.md R31, log 5). -/
def complete (rule : Snapshot → CmdOutcome) (s : State) : Host.Outcome State Fault Refusal :=
  match s.seq with
  | .idle => .fault .noCommandInFlight
  | .busy snap _ => .next (s.retire (rule snap))

/-! ## Reset -/

/-- A reset edge (70_reset_and_hazards.md R190, R191; 20_memory.md R56 step 1): the reset state, whatever the pre-edge
state. The model's own fields go on: the labels of later edges and the free value's counter (log 4). -/
def resetEdge (s : State) : State :=
  { State.reset with edges := s.edges.tail, accepted := s.accepted }

/-- A state with the command word v in flight and completing at the coming edge, which is quiet: what a host write of v
to CMD at the edge before leaves (20_memory.md R57), with LAT = 1 (log 6). -/
def State.loadCommand (s : State) (v : Word) : State :=
  (s.accept (s.latch v) 0).pushEdge .quiet

end Sys2Proof.Machine
end

