-- ==== Sys2Proof/Machine/NumberTheory.lean ====
section
/-! DEFINITION. The extended Euclidean function and the commands EGCD and MODINV (40_number_theory.md R100-R105). -/

namespace Sys2Proof.Machine

/-- The triple (g, x, y) of 40_number_theory.md R101. -/
structure Bezout where
  g : Int
  x : Int
  y : Int
deriving DecidableEq, Repr

/-- The recursion of 40_number_theory.md R101 with a bound on its depth; at bound 0 it answers as the base case, which
the bound of `egcd` never reaches with a != 0 (log 10). -/
def egcdFuel : Nat → Int → Int → Bezout
  | 0, _, b => ⟨b, 0, 1⟩
  | n + 1, a, b =>
    if a = 0 then ⟨b, 0, 1⟩
    else
      let r := egcdFuel n (fmod b a) a
      ⟨r.g, r.y - fdiv b a * r.x, r.x⟩

/-- EGCD(a, b) on exact integers (40_number_theory.md R101). The depth bound |a| + 1 suffices, since |a| strictly
decreases (R103). -/
def egcd (a b : Int) : Bezout := egcdFuel (a.natAbs + 1) a b

/-- EGCD (40_number_theory.md R100, R102). -/
def egcdRule (s : Snapshot) : CmdOutcome :=
  let r := egcd (sext32 s.a) (sext32 s.b)
  if fits32 r.g && fits32 r.x && fits32 r.y then .ok (.results (word r.g) (word r.x) (word r.y))
  else .err .overflow

/-- The meaning of EGCD. -/
def execEgcd (s : State) : Host.Outcome State Fault Refusal := complete egcdRule s

/-- MODINV (40_number_theory.md R105): g != 1 is tested first, then m = 0. -/
def modinvRule (s : Snapshot) : CmdOutcome :=
  let m := sext32 s.b
  let r := egcd (sext32 s.a) m
  if r.g ≠ 1 then .err .invalidKey
  else if m = 0 then .err .zeroModulus
  else .ok (.res0Only (word (fmod r.x m)))

/-- The meaning of MODINV. -/
def execModinv (s : State) : Host.Outcome State Fault Refusal := complete modinvRule s

end Sys2Proof.Machine
end

