-- ==== Sys2Proof/Machine/Affine.lean ====
section
/-! DEFINITION. The mod-26 affine datapath: KEYSET, ENC_IDX, DEC_IDX, ENC_CHAR, DEC_CHAR (41_affine_datapath.md
R121-R129). -/

namespace Sys2Proof.Machine

/-- The key KEYSET makes of two words (41_affine_datapath.md R121). -/
def keyFrom (a b : Word) : KeyWrite :=
  let r := egcd (sext32 a) modulus
  if r.g = 1 then ⟨a, b, word (fmod r.x modulus), true⟩
  else ⟨a, b, 0#32, false⟩

/-- KEYSET (41_affine_datapath.md R121): never fails. -/
def keysetRule (s : Snapshot) : CmdOutcome := .ok (.keyOnly (keyFrom s.a s.b))

/-- The meaning of KEYSET. -/
def execKeyset (s : State) : Host.Outcome State Fault Refusal := complete keysetRule s

/-- The affine map on a letter index (41_affine_datapath.md R123), on exact integers. -/
def encIndex (s : Snapshot) (p : Int) : Int := fmod (sext32 s.ka * p + sext32 s.kb) modulus

/-- The inverse affine map on a letter index (41_affine_datapath.md R125), on exact integers. -/
def decIndex (s : Snapshot) (q : Int) : Int := fmod (zext32 s.ki * (q - sext32 s.kb)) modulus

/-- One character through an index map (41_affine_datapath.md R127, R129): a letter is mapped within its class, every
other code passes through with all 32 bits. -/
def mapChar (indexMap : Int → Int) (w : Word) : Word :=
  match charClass (zext32 w) with
  | none => w
  | some base => word (indexMap (zext32 w - base) + base)

/-- ENC_IDX (41_affine_datapath.md R123): KEYV is not read. -/
def encIdxRule (s : Snapshot) : CmdOutcome := .ok (.res0Only (word (encIndex s (sext32 s.a))))

/-- The meaning of ENC_IDX. -/
def execEncIdx (s : State) : Host.Outcome State Fault Refusal := complete encIdxRule s

/-- DEC_IDX (41_affine_datapath.md R125): KEYV = 0 is checked first. -/
def decIdxRule (s : Snapshot) : CmdOutcome :=
  if s.kv then .ok (.res0Only (word (decIndex s (sext32 s.a)))) else .err .invalidKey

/-- The meaning of DEC_IDX. -/
def execDecIdx (s : State) : Host.Outcome State Fault Refusal := complete decIdxRule s

/-- ENC_CHAR (41_affine_datapath.md R127). -/
def encCharRule (s : Snapshot) : CmdOutcome := .ok (.res0Only (mapChar (encIndex s) s.a))

/-- The meaning of ENC_CHAR. -/
def execEncChar (s : State) : Host.Outcome State Fault Refusal := complete encCharRule s

/-- DEC_CHAR (41_affine_datapath.md R129): KEYV = 0 is checked before classification. -/
def decCharRule (s : Snapshot) : CmdOutcome :=
  if s.kv then .ok (.res0Only (mapChar (decIndex s) s.a)) else .err .invalidKey

/-- The meaning of DEC_CHAR. -/
def execDecChar (s : State) : Host.Outcome State Fault Refusal := complete decCharRule s

end Sys2Proof.Machine
end

