-- ==== Sys2Proof/Machine/Control.lean ====
section
/-! DEFINITION. NOP and the completion of an illegal word (42_control.md R150, R153). -/

namespace Sys2Proof.Machine

/-- NOP (42_control.md R150): no data or key register is written. -/
def nopRule (_ : Snapshot) : CmdOutcome := .ok .nothing

/-- The meaning of NOP. -/
def execNop (s : State) : Host.Outcome State Fault Refusal := complete nopRule s

/-- An illegal word (42_control.md R153): Err(ILLEGAL_CMD), the operands ignored. -/
def illegalRule (_ : Snapshot) : CmdOutcome := .err .illegalCmd

/-- The completion of an illegal word. -/
def execIllegal (s : State) : Host.Outcome State Fault Refusal := complete illegalRule s

end Sys2Proof.Machine
end

