-- ==== Sys2Proof/Machine/Dispatch.lean ====
section
/-! DEFINITION. One arm per command: the completion of that command in a state (42_control.md R151). -/

namespace Sys2Proof.Machine

def exec (i : Instr) (s : State) : Host.Outcome State Fault Refusal :=
  match i with
  | .nop => Sys2Proof.Machine.execNop s
  | .egcd => Sys2Proof.Machine.execEgcd s
  | .modinv => Sys2Proof.Machine.execModinv s
  | .keyset => Sys2Proof.Machine.execKeyset s
  | .encIdx => Sys2Proof.Machine.execEncIdx s
  | .decIdx => Sys2Proof.Machine.execDecIdx s
  | .encChar => Sys2Proof.Machine.execEncChar s
  | .decChar => Sys2Proof.Machine.execDecChar s

end Sys2Proof.Machine
end

