-- ==== Sys2Proof/Machine/EdgeRule.lean ====
section
/-! DEFINITION. One rising edge: reset, then the engine, then the host action judged on the pre-edge state
(20_memory.md R56). -/

namespace Sys2Proof.Machine

/-- The completion of a command word (42_control.md R151): the decoded command's meaning, or the illegal completion
(R153). -/
def completeWord (w : Word) (s : State) : Host.Outcome State Fault Refusal :=
  match decode w with
  | .legal i => exec i s
  | .illegal _ => execIllegal s

/-- What the engine does at an edge without reset (20_memory.md R56 step 2): nothing in IDLE, the completion when no edge
is left to wait, otherwise one edge of waiting. -/
def enginePhase (s : State) : Host.Outcome State Fault Refusal :=
  match s.seq with
  | .idle => .next s
  | .busy snap 0 => completeWord snap.cmd s
  | .busy snap (n + 1) => .next (s.setSeq (.busy snap n))

/-- The host action after the engine's part (20_memory.md R56 step 3), and the edge's label used up. -/
def afterEngine (σ : State) (o : Host.Outcome State Fault Refusal) : Host.Outcome State Fault Refusal :=
  match o with
  | .next t => .next (hostAccess σ σ.nextEdge.act t).popEdge
  | .fault f => .fault f
  | .refused r => .refused r

/-- One rising edge (20_memory.md R56). -/
def runEdge (s : State) : Host.Outcome State Fault Refusal :=
  if s.nextEdge.rst then .next (resetEdge s) else afterEngine s (enginePhase s)

end Sys2Proof.Machine
end

