-- ==== Sys2Proof/Machine/Step.lean ====
section
/-! DEFINITION. One step of the machine is one rising edge (20_memory.md R51, R56). -/

namespace Sys2Proof.Machine

/-- One rising edge, labelled by the front of the state's own `edges` (log 2). -/
def step (s : State) : Host.Outcome State Fault Refusal := runEdge s

/-- The state in which the very next step completes the command word w: the MIE fetches nothing, a command comes by a
host write to CMD (20_memory.md R57, R66), and this stands for that write at the edge before (log 6). -/
def State.withFetchWord (s : State) (nbits w : Nat) : State :=
  s.loadCommand (BitVec.ofNat 32 (w % 2 ^ nbits))

end Sys2Proof.Machine
end

