-- ==== Sys2Proof/Machine/HostProgram.lean ====
section
/-! DEFINITION. Host programs over the bus (30_encoding.md R77, R78). The host is outside the block: a line is one edge
label, and the words it samples are the host's. -/

namespace Sys2Proof.Machine

/-- A primitive line of a host program (30_encoding.md R77). -/
inductive HostLine where
  /-- WR reg, value -/
  | wr (r : Reg) (v : Word)
  /-- RD reg -/
  | rd (r : Reg)
  /-- CMD MNEMONIC -/
  | cmd (i : Instr)
  /-- CMD 0x<hex>, a raw word, legal or not -/
  | cmdRaw (w : Word)
  /-- IDLE: one edge with no host action -/
  | idle
deriving DecidableEq, Repr

/-- The one bus access of a line (30_encoding.md R77). -/
def HostLine.action (l : HostLine) : HostAction :=
  match l with
  | .wr r v => .write r.index v
  | .rd r => .read r.index
  | .cmd i => .write Reg.cmd.index (encode i)
  | .cmdRaw w => .write Reg.cmd.index w
  | .idle => .noAccess

/-- CLRDONE (30_encoding.md R78). -/
def HostLine.clrdone : HostLine := .wr .status 2#32

/-- IEON (30_encoding.md R78). -/
def HostLine.ieon : HostLine := .wr .ctrl 1#32

/-- IEOFF (30_encoding.md R78). -/
def HostLine.ieoff : HostLine := .wr .ctrl 0#32

/-- One line at one edge without reset: the state after the edge, none if the edge stopped. -/
def runLine (l : HostLine) (s : State) : Option State :=
  match step (s.pushEdge ⟨false, l.action⟩) with
  | .next t => some t
  | .fault _ => none
  | .refused _ => none

/-- A sequence of lines, one edge each. -/
def runLines : List HostLine → State → Option State
  | [], s => some s
  | l :: ls, s => (runLine l s).bind (runLines ls)

/-- POLL (30_encoding.md R78) with a bound on the number of reads: it repeats RD STATUS until the word read has
BUSY = 0 and leaves that word; none if the bound is used up (log 14). -/
def poll : Nat → State → Option (State × Word)
  | 0, _ => none
  | n + 1, s =>
    (runLine (.rd .status) s).bind fun t =>
      if (s.rdata Reg.status.index).getLsbD 0 then poll n t else some (t, s.rdata Reg.status.index)

/-- EXEC MNEMONIC (30_encoding.md R78): CMD MNEMONIC, then POLL. -/
def execPoll (bound : Nat) (i : Instr) (s : State) : Option (State × Word) :=
  (runLine (.cmd i) s).bind (poll bound)

end Sys2Proof.Machine
end

