-- ==== Sys2Proof/Safety.lean ====
section
/-! DEFINITION. What counts as a good state and a safe run, in the terms the claims use. -/

namespace Sys2Proof.Machine

/-- The key invariant of 10_state.md R37 on a key (KEYA, KEYINV, KEYV). -/
def KeyOk (ka ki : Word) (kv : Bool) : Prop :=
  (kv = true → 1 ≤ zext32 ki ∧ zext32 ki ≤ 25 ∧ fmod (sext32 ka * zext32 ki) modulus = 1) ∧
  (kv = false → ki = 0#32)

/-- 10_state.md R37 on the key registers of a state. -/
def State.KeyInvariant (s : State) : Prop := KeyOk s.keya s.keyinv s.keyv

/-- While a command is in flight, DONE and ERRCODE are 0 (20_memory.md R65: "a STATUS write changes only DONE, which is
0 while BUSY"; 42_control.md R154). -/
def State.StatusInvariant (s : State) : Prop :=
  s.busy = true → s.done = false ∧ s.errcode = .none

/-- The key in the snapshot of the command in flight is the key in the key registers (70_reset_and_hazards.md R203: a
command uses the key as it stood at its acceptance, and no other command completes in between). -/
def State.SnapshotKeyInvariant (s : State) : Prop :=
  ∀ snap left, s.seq = .busy snap left →
    snap.ka = s.keya ∧ snap.kb = s.keyb ∧ snap.ki = s.keyinv ∧ snap.kv = s.keyv

/-- The states the machine can be in: from the reset state, with any edge labels to come, by steps. -/
inductive Reachable : State → Prop where
  | reset (es : List Edge) : Reachable { State.reset with edges := es }
  | step (s t : State) (hs : Reachable s) (h : Machine.step s = .next t) : Reachable t

/-- A step is safe when it neither faults nor is refused. -/
def StepSafe (s : State) : Prop := ∃ t, step s = .next t

end Sys2Proof.Machine
end

