-- ==== Sys2Proof/Certificates/Slice0/Obligations.lean ====
section
/-! DEFINITION. The statements for the provers. A statement about a command's completion has as hypothesis that a command
with snapshot p is in flight (`s.seq = .busy p n`): only then does a completion exist (10_state.md R31). -/

open Sys2Proof Sys2Proof.Machine

/-! ## Encoding -/

/-- 30_encoding.md R72: the eight words, written out from the opcode map, decode to their commands. -/
def Obligations.OpcodeMapWordsDecode : Prop :=
  decode 0x00000000#32 = .legal .nop ∧ decode 0x00000001#32 = .legal .egcd ∧
  decode 0x00000002#32 = .legal .modinv ∧ decode 0x00000003#32 = .legal .keyset ∧
  decode 0x00000004#32 = .legal .encIdx ∧ decode 0x00000005#32 = .legal .decIdx ∧
  decode 0x00000006#32 = .legal .encChar ∧ decode 0x00000007#32 = .legal .decChar

/-- 30_encoding.md R72, R75: a word decodes to a command exactly when it is that command's word. Decoding an encoded
command gives it back, and no other word is legal. -/
def Obligations.DecodeIsLegalExactlyOnEncodedWords : Prop :=
  ∀ (w : Word) (i : Instr), decode w = .legal i ↔ w = encode i

/-- 30_encoding.md R70, R75: the verdict of every word from its two fields. -/
def Obligations.IllegalWordsByTheirFields : Prop :=
  ∀ w : Word,
    (w.extractLsb' 4 28 ≠ 0#28 → decode w = .illegal .reservedBitsSet) ∧
    (w.extractLsb' 4 28 = 0#28 → 8 ≤ (w.extractLsb' 0 4).toNat → decode w = .illegal .opcodeOutOfRange) ∧
    (w.extractLsb' 4 28 = 0#28 → (w.extractLsb' 0 4).toNat < 8 → ∃ i, decode w = .legal i)

/-- 30_encoding.md R72, R79: how a word prints: the eight legal words as their mnemonics, every other word as CMD 0x and
its eight hex digits, most significant first, marked illegal. The letter case of the hex digits is the model's choice
(log 13). -/
def Obligations.PrintedCommandWords : Prop :=
  (printWord 0x00000000#32 = ("NOP", true) ∧ printWord 0x00000001#32 = ("EGCD", true) ∧
    printWord 0x00000002#32 = ("MODINV", true) ∧ printWord 0x00000003#32 = ("KEYSET", true) ∧
    printWord 0x00000004#32 = ("ENC_IDX", true) ∧ printWord 0x00000005#32 = ("DEC_IDX", true) ∧
    printWord 0x00000006#32 = ("ENC_CHAR", true) ∧ printWord 0x00000007#32 = ("DEC_CHAR", true)) ∧
  (∀ i, printWord (encode i) = (i.mnemonic, true)) ∧
  (∀ w, (∀ i, w ≠ encode i) → printWord w = ("CMD 0x" ++ String.ofList (hexDigits w), false)) ∧
  (∀ w : Word, hexDigits w = ([7, 6, 5, 4, 3, 2, 1, 0] : List Nat).map fun k =>
    ['0', '1', '2', '3', '4', '5', '6', '7', '8', '9', 'A', 'B', 'C', 'D', 'E', 'F'].getD (w.toNat / 16 ^ k % 16) ' ')

/-! ## Integer primitives -/

/-- 00_scope.md R13: the readings of a word, the word of an integer, and the range test. -/
def Obligations.ConversionsAreTwosComplement : Prop :=
  (∀ w : Word, sext32 w = if w.getLsbD 31 = true then (w.toNat : Int) - 2 ^ 32 else (w.toNat : Int)) ∧
  (∀ w : Word, zext32 w = (w.toNat : Int)) ∧
  (∀ n : Int, -(2 ^ 31) ≤ n → n ≤ 2 ^ 32 - 1 → ((word n).toNat : Int) = n % 2 ^ 32) ∧
  (∀ n : Int, fits32 n = true ↔ -(2 ^ 31) ≤ n ∧ n ≤ 2 ^ 31 - 1)

/-- 00_scope.md R14: floored division. For d > 0 the remainder is the unique value in [0, d) congruent to n; for d < 0 it
lies in (d, 0]; the quotient is the rounded-down one. -/
def Obligations.FlooredDivision : Prop :=
  ∀ n d : Int, d ≠ 0 →
    fdiv n d = ⌊(n : ℚ) / (d : ℚ)⌋ ∧
    fmod n d = n - d * fdiv n d ∧
    (0 < d → 0 ≤ fmod n d ∧ fmod n d < d ∧ ∀ r, 0 ≤ r → r < d → d ∣ n - r → r = fmod n d) ∧
    (d < 0 → d < fmod n d ∧ fmod n d ≤ 0)

/-! ## The register bus -/

/-- 20_memory.md R54: what every index reads as, from the pre-edge state, and that a read changes nothing: an edge with a
read gives the same state as that edge with no access. A host that samples rdata where it writes sees the pre-edge value
of the register at addr as well, and without an access nothing is sampled (20_memory.md R51). -/
def Obligations.ReadsReturnRegistersWithoutEffect : Prop :=
  (∀ s : State,
    s.rdata 0#4 = 0x4D494501#32 ∧ s.rdata 1#4 = (if s.ie then 1#32 else 0#32) ∧ s.rdata 2#4 = s.statusWord ∧
    s.rdata 3#4 = 0#32 ∧ s.rdata 4#4 = s.opa ∧ s.rdata 5#4 = s.opb ∧ s.rdata 6#4 = s.res0 ∧
    s.rdata 7#4 = s.res1 ∧ s.rdata 8#4 = s.res2 ∧ s.rdata 9#4 = s.keya ∧ s.rdata 10#4 = s.keyb ∧
    s.rdata 11#4 = s.keyinv ∧ s.rdata 12#4 = 0#32 ∧ s.rdata 13#4 = 0#32 ∧ s.rdata 14#4 = 0#32 ∧
    s.rdata 15#4 = 0#32) ∧
  (∀ (s : State) (i : RegIndex), (HostAction.read i).sampled s = some (s.rdata i)) ∧
  (∀ (s : State) (i : RegIndex) (v : Word), (HostAction.write i v).sampled s = some (s.rdata i)) ∧
  (∀ s : State, HostAction.noAccess.sampled s = none) ∧
  (∀ (s : State) (i : RegIndex) (es : List Edge),
    step { s with edges := ⟨false, .read i⟩ :: es } = step { s with edges := ⟨false, .noAccess⟩ :: es })

/-- 10_state.md R23, R24: the fields of the word that index 2 reads as, and the code of each ERRCODE name. -/
def Obligations.StatusWordFields : Prop :=
  (ErrCode.none.bits = 0#4 ∧ ErrCode.invalidKey.bits = 1#4 ∧ ErrCode.zeroModulus.bits = 2#4 ∧
    ErrCode.illegalCmd.bits = 3#4 ∧ ErrCode.overflow.bits = 4#4) ∧
  ∀ s : State,
    (s.rdata 2#4).getLsbD 0 = s.busy ∧ (s.rdata 2#4).getLsbD 1 = s.done ∧
    (s.rdata 2#4).getLsbD 2 = decide (s.errcode ≠ .none) ∧ (s.rdata 2#4).getLsbD 3 = s.drop ∧
    (s.rdata 2#4).extractLsb' 4 4 = s.errcode.bits ∧ (s.rdata 2#4).getLsbD 8 = s.keyv ∧
    (s.rdata 2#4).extractLsb' 9 23 = 0#23

/-- 20_memory.md R55, R56, R57: the effect of a host write by index, over what the same edge does with no access. It
covers all 16 indexes, the engine idle, waiting or completing at that edge. That an acceptance draws the free latency and
counts itself is the model's choice (log 1). -/
def Obligations.HostWriteEffectByIndex : Prop :=
  ∀ (s : State) (i : RegIndex) (v : Word) (es : List Edge),
    ∃ u, step { s with edges := ⟨false, .noAccess⟩ :: es } = .next u ∧
      step { s with edges := ⟨false, .write i v⟩ :: es } = .next
        (if i = 1#4 then { u with ie := v.getLsbD 0 }
         else if i = 2#4 then (if v.getLsbD 1 = true ∧ s.completes = false then { u with done := false } else u)
         else if i = 3#4 then
           (if s.busy = true then { u with drop := true }
            else { u with
              seq := .busy ⟨v, s.opa, s.opb, s.keya, s.keyb, s.keyinv, s.keyv⟩ (s.freeLatency v)
              done := false
              errcode := .none
              drop := false
              accepted := s.accepted + 1 })
         else if i = 4#4 then { u with opa := v }
         else if i = 5#4 then { u with opb := v }
         else u)

/-- 10_state.md R22, R26, R27: what a host writes to OPA, OPB or CTRL reads back at the next edge, CTRL with its reserved
bits 0, whether the engine is idle, waiting or completing. -/
def Obligations.HostWritesReadBack : Prop :=
  ∀ (s : State) (v : Word) (es : List Edge),
    (s.edges = ⟨false, .write 4#4 v⟩ :: es → ∃ t, step s = .next t ∧ t.rdata 4#4 = v ∧ t.opb = s.opb) ∧
    (s.edges = ⟨false, .write 5#4 v⟩ :: es → ∃ t, step s = .next t ∧ t.rdata 5#4 = v ∧ t.opa = s.opa) ∧
    (s.edges = ⟨false, .write 1#4 v⟩ :: es → ∃ t, step s = .next t ∧ t.rdata 1#4 = v &&& 1#32)

/-- 20_memory.md R57: a command written in IDLE is accepted with its snapshot, whatever the word; one written in BUSY is
dropped and nothing else of the edge changes. An illegal word in flight completes with ILLEGAL_CMD. The count of
accepted commands and the countdown of the edges left are the model's choice (log 1). -/
def Obligations.CommandIssueAcceptedOrDropped : Prop :=
  ∀ (s : State) (v : Word) (es : List Edge), s.edges = ⟨false, .write 3#4 v⟩ :: es →
    (s.seq = .idle → ∃ left, step s = .next { s with
      seq := .busy ⟨v, s.opa, s.opb, s.keya, s.keyb, s.keyinv, s.keyv⟩ left
      done := false
      errcode := .none
      drop := false
      edges := es
      accepted := s.accepted + 1 }) ∧
    (∀ p n, s.seq = .busy p (n + 1) →
      step s = .next { s with seq := .busy p n, drop := true, edges := es }) ∧
    (∀ p, s.seq = .busy p 0 →
      ∃ u, completeWord p.cmd s = .next u ∧ step s = .next { u with drop := true, edges := es } ∧
        ((∀ i, p.cmd ≠ encode i) → u.errcode = .illegalCmd))

/-- 60_exceptions.md R163: events of one edge. Reset discards completion and host access; a completion's DONE wins over
a clear at the same edge; a command written at the completing edge is dropped. That the labels to come and the count of
accepted commands survive a reset edge is the model's choice (log 4). -/
def Obligations.SimultaneousEventsOrder : Prop :=
  ∀ (s : State) (act : HostAction) (es : List Edge),
    (s.edges = ⟨true, act⟩ :: es →
      step s = .next { State.reset with edges := es, accepted := s.accepted }) ∧
    (∀ p, s.edges = ⟨false, act⟩ :: es → s.seq = .busy p 0 →
      ∃ u t, completeWord p.cmd s = .next u ∧ step s = .next t ∧ t = { hostAccess s act u with edges := es } ∧
        t.done = true ∧ t.seq = .idle ∧ (∀ v, act = .write 3#4 v → t = { u with drop := true, edges := es }))

/-- 70_reset_and_hazards.md R190: the reset state by its readings, the sequencer and irq, and that an edge with rst = 1
enters it from every state with every host action; only the model's own fields (labels to come, free-value counter) go
on (log 4). -/
def Obligations.ResetValuesAndResetEdge : Prop :=
  (State.reset.rdata 0#4 = 0x4D494501#32 ∧ (∀ i : RegIndex, i ≠ 0#4 → State.reset.rdata i = 0#32) ∧
    State.reset.seq = .idle ∧ State.reset.irq = false) ∧
  (∀ (s : State) (act : HostAction) (es : List Edge),
    step { s with edges := ⟨true, act⟩ :: es } =
      .next { State.reset with edges := es, accepted := s.accepted })

/-- 60_exceptions.md R170: irq is IE and DONE, and the edges after which it is 1 or 0. -/
def Obligations.IrqFollowsEnableAndDone : Prop :=
  ∀ (s : State) (es : List Edge),
    (s.irq = true ↔ s.ie = true ∧ s.done = true) ∧
    (∀ p act, s.ie = true → s.seq = .busy p 0 → s.edges = ⟨false, act⟩ :: es → (∀ v, act ≠ .write 1#4 v) →
      ∃ t, step s = .next t ∧ t.irq = true) ∧
    (∀ v, s.done = true → s.edges = ⟨false, .write 1#4 v⟩ :: es → v.getLsbD 0 = true →
      ∃ t, step s = .next t ∧ t.irq = true) ∧
    (∀ v, s.completes = false → s.edges = ⟨false, .write 2#4 v⟩ :: es → v.getLsbD 1 = true →
      ∃ t, step s = .next t ∧ t.irq = false) ∧
    (∀ v, s.seq = .idle → s.edges = ⟨false, .write 3#4 v⟩ :: es →
      ∃ t, step s = .next t ∧ t.irq = false) ∧
    (∀ v, s.edges = ⟨false, .write 1#4 v⟩ :: es → v.getLsbD 0 = false →
      ∃ t, step s = .next t ∧ t.irq = false) ∧
    (∀ act, s.edges = ⟨true, act⟩ :: es → ∃ t, step s = .next t ∧ t.irq = false)

/-- 70_reset_and_hazards.md R201, 20_memory.md R63: after an accepted command a read of STATUS returns BUSY = 1, and a
second command written at the very next edge is dropped whatever LAT is, and is never in flight. -/
def Obligations.SecondCommandAtNextEdgeIsDropped : Prop :=
  ∀ (s : State) (v w : Word) (es : List Edge),
    s.seq = .idle → s.edges = ⟨false, .write 3#4 v⟩ :: ⟨false, .write 3#4 w⟩ :: es →
    ∃ t u, step s = .next t ∧ (t.rdata 2#4).getLsbD 0 = true ∧ step t = .next u ∧ u.drop = true ∧
      ∀ p n, u.seq = .busy p n → p = ⟨v, s.opa, s.opb, s.keya, s.keyb, s.keyinv, s.keyv⟩

/-! ## The sequencer -/

/-- 42_control.md R151, 20_memory.md R56: at the completing edge the step runs the decoded command, then the host action
judged on the pre-edge state, and uses the edge's label up. -/
def Obligations.StepRunsDecodedCommand : Prop :=
  ∀ (s : State) (p : Snapshot) (i : Instr) (act : HostAction) (es : List Edge),
    s.seq = .busy p 0 → decode p.cmd = .legal i → s.edges = ⟨false, act⟩ :: es →
    step s =
      match exec i s with
      | .next t => .next { hostAccess s act t with edges := es }
      | .fault f => .fault f
      | .refused r => .refused r

/-- 42_control.md R153: an illegal word is accepted in IDLE like every word, takes its edges, and completes with
ILLEGAL_CMD, writing no data or key register. The countdown of the edges left is the model's form of LAT (log 1). -/
def Obligations.IllegalWordCompletesWithIllegalCmd : Prop :=
  ∀ (s : State) (w : Word) (es : List Edge), (∀ i, w ≠ encode i) →
    (s.seq = .idle → s.edges = ⟨false, .write 3#4 w⟩ :: es →
      ∃ t left, step s = .next t ∧
        t.seq = .busy ⟨w, s.opa, s.opb, s.keya, s.keyb, s.keyinv, s.keyv⟩ left) ∧
    (∀ p n, p.cmd = w → s.seq = .busy p (n + 1) → s.edges = ⟨false, .noAccess⟩ :: es →
      step s = .next { s with seq := .busy p n, edges := es }) ∧
    (∀ p, p.cmd = w → s.seq = .busy p 0 → s.edges = ⟨false, .noAccess⟩ :: es →
      step s = .next { s with errcode := .illegalCmd, done := true, seq := .idle, edges := es })

/-- 60_exceptions.md R180 and 10_state.md R31: with no host action an IDLE engine holds its state, and a BUSY one that
does not complete only waits. The count of edges left is the model's own form of LAT (log 1). -/
def Obligations.QuietEdgeHoldsStateOrWaits : Prop :=
  ∀ (s : State) (es : List Edge), s.edges = ⟨false, .noAccess⟩ :: es →
    (s.seq = .idle → step s = .next { s with edges := es }) ∧
    (∀ p n, s.seq = .busy p (n + 1) → step s = .next { s with seq := .busy p n, edges := es })

/-- 20_memory.md R65, 70_reset_and_hazards.md R200, R202: at an edge between acceptance and completion no host action
touches the snapshot, a result register, the key or ERRCODE. That none touches the remaining wait either, and that it
falls by one at each edge, is the model's choice (log 1). -/
def Obligations.HostActionsLeaveCommandInFlightAlone : Prop :=
  ∀ (s : State) (p : Snapshot) (n : Nat) (act : HostAction) (es : List Edge),
    s.seq = .busy p (n + 1) → s.edges = ⟨false, act⟩ :: es →
    ∃ t, step s = .next t ∧ t.seq = .busy p n ∧ t.res0 = s.res0 ∧ t.res1 = s.res1 ∧ t.res2 = s.res2 ∧
      t.keya = s.keya ∧ t.keyb = s.keyb ∧ t.keyinv = s.keyinv ∧ t.keyv = s.keyv ∧ t.errcode = s.errcode ∧
      t.edges = es ∧ t.accepted = s.accepted ∧
      (t.done = s.done ∨ (t.done = false ∧ ∃ v, act = .write 2#4 v)) ∧
      (t.ie = s.ie ∨ ∃ v, act = .write 1#4 v) ∧ (t.opa = s.opa ∨ ∃ v, act = .write 4#4 v) ∧
      (t.opb = s.opb ∨ ∃ v, act = .write 5#4 v) ∧
      (t.drop = s.drop ∨ (t.drop = true ∧ ∃ v, act = .write 3#4 v))

/-- 42_control.md R151, 70_reset_and_hazards.md R205: whatever the host does meanwhile, after the edges of its latency
without reset a command in flight has completed, with the registers and the error code its completion in the state of
now gives. That it takes n + 1 edges whatever the host does is the model's choice (log 1); edges past the listed labels
are quiet (log 3). -/
def Obligations.CommandCompletesAfterItsLatency : Prop :=
  ∀ (s : State) (p : Snapshot) (n : Nat), s.seq = .busy p n → (∀ e ∈ s.edges.take (n + 1), e.rst = false) →
    ∃ t u, Host.Core.run Sys2Proof.core (n + 1) s = .next t ∧ completeWord p.cmd s = .next u ∧
      t.seq = .idle ∧ t.done = true ∧ t.errcode = u.errcode ∧ t.res0 = u.res0 ∧ t.res1 = u.res1 ∧
      t.res2 = u.res2 ∧ t.keya = u.keya ∧ t.keyb = u.keyb ∧ t.keyinv = u.keyinv ∧ t.keyv = u.keyv

/-- 42_control.md R151, 20_memory.md R65, 70_reset_and_hazards.md R205: two runs with the same snapshot in flight and the
same result and key registers end with the same results, key and error code, whatever their latencies, their other
registers and the host's accesses. The lengths n + 1 and n' + 1 of the runs are the model's form of LAT (log 1); edges
past the listed labels are quiet (log 3). -/
def Obligations.OutcomeDependsOnSnapshotOnly : Prop :=
  ∀ (s s' : State) (p : Snapshot) (n n' : Nat), s.seq = .busy p n → s'.seq = .busy p n' →
    (∀ e ∈ s.edges.take (n + 1), e.rst = false) → (∀ e ∈ s'.edges.take (n' + 1), e.rst = false) →
    s.res0 = s'.res0 → s.res1 = s'.res1 → s.res2 = s'.res2 → s.keya = s'.keya → s.keyb = s'.keyb →
    s.keyinv = s'.keyinv → s.keyv = s'.keyv →
    ∃ t t', Host.Core.run Sys2Proof.core (n + 1) s = .next t ∧ Host.Core.run Sys2Proof.core (n' + 1) s' = .next t' ∧
      t.res0 = t'.res0 ∧ t.res1 = t'.res1 ∧ t.res2 = t'.res2 ∧ t.keya = t'.keya ∧ t.keyb = t'.keyb ∧
      t.keyinv = t'.keyinv ∧ t.keyv = t'.keyv ∧ t.errcode = t'.errcode ∧ t.done = t'.done ∧ t.seq = t'.seq

/-- 60_exceptions.md R160, R175: every edge from every state has a next state: no error, no word and no access stops the
machine. -/
def Obligations.EveryStepAnswersNext : Prop := ∀ s : State, StepSafe s

/-- 10_state.md R31: completion is a transition from BUSY only. In IDLE a meaning stops by name (log 5). -/
def Obligations.MeaningInIdleStops : Prop :=
  ∀ (i : Instr) (s : State), s.seq = .idle → exec i s = .fault .noCommandInFlight

/-! ## The commands -/

/-- 42_control.md R150: NOP writes no data or key register; it completes with ERRCODE 0. -/
def Obligations.NopCompletion : Prop :=
  ∀ (s : State) (p : Snapshot) (n : Nat), s.seq = .busy p n →
    exec .nop s = .next { s with errcode := .none, done := true, seq := .idle }

/-- 40_number_theory.md R101: the recursion. -/
def Obligations.EgcdRecursion : Prop :=
  ∀ a b : Int,
    (a = 0 → egcd a b = ⟨b, 0, 1⟩) ∧
    (a ≠ 0 → egcd a b =
      ⟨(egcd (fmod b a) a).g, (egcd (fmod b a) a).y - fdiv b a * (egcd (fmod b a) a).x, (egcd (fmod b a) a).x⟩)

/-- 40_number_theory.md R104: the laws of EGCD. -/
def Obligations.EgcdLaws : Prop :=
  ∀ a b : Int,
    a * (egcd a b).x + b * (egcd a b).y = (egcd a b).g ∧
    (egcd a b).g.natAbs = Int.gcd a b ∧
    (a = 0 → egcd a b = ⟨b, 0, 1⟩) ∧
    (a ≠ 0 → (egcd a b).g ≠ 0 ∧ Int.sign (egcd a b).g = Int.sign a) ∧
    (0 < a ∨ (a = 0 ∧ 0 ≤ b) → (egcd a b).g = (Int.gcd a b : Int))

/-- 40_number_theory.md R100, R102: the completion of EGCD, with OVERFLOW and no result where one does not fit. -/
def Obligations.EgcdCompletion : Prop :=
  ∀ (s : State) (p : Snapshot) (n : Nat), s.seq = .busy p n →
    exec .egcd s = .next
      (if fits32 (egcd (sext32 p.a) (sext32 p.b)).g = true ∧ fits32 (egcd (sext32 p.a) (sext32 p.b)).x = true ∧
          fits32 (egcd (sext32 p.a) (sext32 p.b)).y = true
       then { s with
         res0 := word (egcd (sext32 p.a) (sext32 p.b)).g
         res1 := word (egcd (sext32 p.a) (sext32 p.b)).x
         res2 := word (egcd (sext32 p.a) (sext32 p.b)).y
         errcode := .none
         done := true
         seq := .idle }
       else { s with errcode := .overflow, done := true, seq := .idle })

/-- 40_number_theory.md R102 leaves open whether OVERFLOW is reachable at W = 32. By the recursion of R101 it is not: EGCD
completes with its three results on all operands, and the words read back as the exact integers. -/
def Obligations.EgcdNeverOverflows : Prop :=
  ∀ (s : State) (p : Snapshot) (n : Nat), s.seq = .busy p n →
    ∃ t, exec .egcd s = .next t ∧
      t = { s with
        res0 := word (egcd (sext32 p.a) (sext32 p.b)).g
        res1 := word (egcd (sext32 p.a) (sext32 p.b)).x
        res2 := word (egcd (sext32 p.a) (sext32 p.b)).y
        errcode := .none
        done := true
        seq := .idle } ∧
      sext32 t.res0 = (egcd (sext32 p.a) (sext32 p.b)).g ∧ sext32 t.res1 = (egcd (sext32 p.a) (sext32 p.b)).x ∧
      sext32 t.res2 = (egcd (sext32 p.a) (sext32 p.b)).y

/-- 40_number_theory.md R105: the completion of MODINV, its two errors in the order of the checks, and its result. -/
def Obligations.ModinvCompletion : Prop :=
  ∀ (s : State) (p : Snapshot) (n : Nat), s.seq = .busy p n →
    ((egcd (sext32 p.a) (sext32 p.b)).g ≠ 1 →
      exec .modinv s = .next { s with errcode := .invalidKey, done := true, seq := .idle }) ∧
    ((egcd (sext32 p.a) (sext32 p.b)).g = 1 → sext32 p.b = 0 →
      exec .modinv s = .next { s with errcode := .zeroModulus, done := true, seq := .idle }) ∧
    ((egcd (sext32 p.a) (sext32 p.b)).g = 1 → sext32 p.b ≠ 0 →
      exec .modinv s = .next { s with
        res0 := word (fmod (egcd (sext32 p.a) (sext32 p.b)).x (sext32 p.b))
        errcode := .none
        done := true
        seq := .idle })

/-- 40_number_theory.md R106: on success RES0 is the inverse modulo m, in [0, m) for m > 0 and there the only one, and in
(m, 0] for m < 0. -/
def Obligations.ModinvSuccessIsTheInverse : Prop :=
  ∀ (s t : State) (p : Snapshot) (n : Nat), s.seq = .busy p n → exec .modinv s = .next t → t.errcode = .none →
    sext32 p.b ∣ sext32 p.a * sext32 t.res0 - 1 ∧
    (0 < sext32 p.b → 0 ≤ sext32 t.res0 ∧ sext32 t.res0 < sext32 p.b ∧
      ∀ r, 0 ≤ r → r < sext32 p.b → sext32 p.b ∣ sext32 p.a * r - 1 → r = sext32 t.res0) ∧
    (sext32 p.b < 0 → sext32 p.b < sext32 t.res0 ∧ sext32 t.res0 ≤ 0)

/-- 40_number_theory.md R107: which operands give which outcome, and the table for m = 26. -/
def Obligations.ModinvOutcomeLaw : Prop :=
  ∀ (s : State) (p : Snapshot) (n : Nat), s.seq = .busy p n →
    ∃ t, exec .modinv s = .next t ∧
      (t.errcode = .zeroModulus ↔ sext32 p.a = 1 ∧ sext32 p.b = 0) ∧
      (t.errcode = .none ↔
        (0 < sext32 p.a ∧ Int.gcd (sext32 p.a) (sext32 p.b) = 1 ∧ sext32 p.b ≠ 0) ∨
        (sext32 p.a = 0 ∧ sext32 p.b = 1)) ∧
      (t.errcode = .zeroModulus ∨ t.errcode = .none ∨ t.errcode = .invalidKey) ∧
      (sext32 p.b = 26 → 0 ≤ sext32 p.a → sext32 p.a ≤ 25 →
        (t.errcode = .none ↔ sext32 p.a ∈ ([1, 3, 5, 7, 9, 11, 15, 17, 19, 21, 23, 25] : List Int))) ∧
      (∀ e ∈ ([(1, 1), (3, 9), (5, 21), (7, 15), (9, 3), (11, 19), (15, 7), (17, 23), (19, 11), (21, 5), (23, 17),
          (25, 25)] : List (Int × Int)),
        sext32 p.b = 26 → sext32 p.a = e.1 → t.res0 = word e.2)

/-- 41_affine_datapath.md R121: the completion of KEYSET; it replaces the whole key and never fails. -/
def Obligations.KeysetCompletion : Prop :=
  ∀ (s : State) (p : Snapshot) (n : Nat), s.seq = .busy p n →
    ((egcd (sext32 p.a) 26).g = 1 →
      exec .keyset s = .next { s with
        keya := p.a
        keyb := p.b
        keyinv := word (fmod (egcd (sext32 p.a) 26).x 26)
        keyv := true
        errcode := .none
        done := true
        seq := .idle }) ∧
    ((egcd (sext32 p.a) 26).g ≠ 1 →
      exec .keyset s = .next { s with
        keya := p.a
        keyb := p.b
        keyinv := 0#32
        keyv := false
        errcode := .none
        done := true
        seq := .idle })

/-- 41_affine_datapath.md R122: KEYSET's inverse is MODINV's with modulus 26, and KEYV = 0 exactly when MODINV fails. -/
def Obligations.KeysetInverseIsModinvOf26 : Prop :=
  ∀ (s : State) (p : Snapshot) (n : Nat), s.seq = .busy p n →
    ∃ t u, exec .keyset s = .next t ∧ exec .modinv { s with seq := .busy { p with b := 26#32 } n } = .next u ∧
      (u.errcode = .none → t.keyinv = u.res0 ∧ t.keyv = true) ∧
      (t.keyv = false ↔ u.errcode = .invalidKey) ∧ u.errcode ≠ .zeroModulus

/-- 41_affine_datapath.md R123: the completion of ENC_IDX for every index and every key; KEYV is not read. -/
def Obligations.EncIdxCompletion : Prop :=
  ∀ (s : State) (p : Snapshot) (n : Nat), s.seq = .busy p n →
    exec .encIdx s = .next { s with
      res0 := word (fmod (sext32 p.ka * sext32 p.a + sext32 p.kb) 26)
      errcode := .none
      done := true
      seq := .idle } ∧
    (word (fmod (sext32 p.ka * sext32 p.a + sext32 p.kb) 26)).toNat ≤ 25

/-- 41_affine_datapath.md R124: ENC_IDX depends on the residues of its operands only. -/
def Obligations.EncIdxDependsOnResidues : Prop :=
  ∀ (s : State) (p : Snapshot) (n : Nat), s.seq = .busy p n →
    exec .encIdx s = .next { s with
      res0 := word (fmod (fmod (sext32 p.ka) 26 * fmod (sext32 p.a) 26 + fmod (sext32 p.kb) 26) 26)
      errcode := .none
      done := true
      seq := .idle }

/-- 41_affine_datapath.md R125: the completion of DEC_IDX, and its error without a valid key. -/
def Obligations.DecIdxCompletion : Prop :=
  ∀ (s : State) (p : Snapshot) (n : Nat), s.seq = .busy p n →
    (p.kv = false → exec .decIdx s = .next { s with errcode := .invalidKey, done := true, seq := .idle }) ∧
    (p.kv = true →
      exec .decIdx s = .next { s with
        res0 := word (fmod (zext32 p.ki * (sext32 p.a - sext32 p.kb)) 26)
        errcode := .none
        done := true
        seq := .idle } ∧
      (word (fmod (zext32 p.ki * (sext32 p.a - sext32 p.kb)) 26)).toNat ≤ 25)

/-- 41_affine_datapath.md R127, R128: the completion of ENC_CHAR for upper-case letters, lower-case letters, and every
other 32-bit code. -/
def Obligations.EncCharCompletion : Prop :=
  ∀ (s : State) (p : Snapshot) (n : Nat), s.seq = .busy p n →
    (0x41 ≤ p.a.toNat ∧ p.a.toNat ≤ 0x5A →
      exec .encChar s = .next { s with
        res0 := word (fmod (sext32 p.ka * ((p.a.toNat : Int) - 65) + sext32 p.kb) 26 + 65)
        errcode := .none
        done := true
        seq := .idle }) ∧
    (0x61 ≤ p.a.toNat ∧ p.a.toNat ≤ 0x7A →
      exec .encChar s = .next { s with
        res0 := word (fmod (sext32 p.ka * ((p.a.toNat : Int) - 97) + sext32 p.kb) 26 + 97)
        errcode := .none
        done := true
        seq := .idle }) ∧
    (¬(0x41 ≤ p.a.toNat ∧ p.a.toNat ≤ 0x5A) → ¬(0x61 ≤ p.a.toNat ∧ p.a.toNat ≤ 0x7A) →
      exec .encChar s = .next { s with res0 := p.a, errcode := .none, done := true, seq := .idle })

/-- 41_affine_datapath.md R129, R128: the completion of DEC_CHAR; KEYV = 0 is an error for every code, non-letters
among them. -/
def Obligations.DecCharCompletion : Prop :=
  ∀ (s : State) (p : Snapshot) (n : Nat), s.seq = .busy p n →
    (p.kv = false → exec .decChar s = .next { s with errcode := .invalidKey, done := true, seq := .idle }) ∧
    (p.kv = true → 0x41 ≤ p.a.toNat ∧ p.a.toNat ≤ 0x5A →
      exec .decChar s = .next { s with
        res0 := word (fmod (zext32 p.ki * ((p.a.toNat : Int) - 65 - sext32 p.kb)) 26 + 65)
        errcode := .none
        done := true
        seq := .idle }) ∧
    (p.kv = true → 0x61 ≤ p.a.toNat ∧ p.a.toNat ≤ 0x7A →
      exec .decChar s = .next { s with
        res0 := word (fmod (zext32 p.ki * ((p.a.toNat : Int) - 97 - sext32 p.kb)) 26 + 97)
        errcode := .none
        done := true
        seq := .idle }) ∧
    (p.kv = true → ¬(0x41 ≤ p.a.toNat ∧ p.a.toNat ≤ 0x5A) → ¬(0x61 ≤ p.a.toNat ∧ p.a.toNat ≤ 0x7A) →
      exec .decChar s = .next { s with res0 := p.a, errcode := .none, done := true, seq := .idle })

/-! ## Laws of the datapath -/

/-- 41_affine_datapath.md R126: with a valid key, DEC_IDX of ENC_IDX of p is p modulo 26. The premise KeyOk is the key
invariant of 10_state.md R37, which every reachable state has. -/
def Obligations.IndexRoundTrip : Prop :=
  ∀ (s : State) (p : Snapshot) (n : Nat), s.seq = .busy p n → KeyOk p.ka p.ki p.kv → p.kv = true →
    ∃ t u, exec .encIdx s = .next t ∧
      exec .decIdx { s with seq := .busy { p with a := t.res0 } n } = .next u ∧
      u.res0 = word (fmod (sext32 p.a) 26) ∧ u.errcode = .none ∧
      (0 ≤ sext32 p.a → sext32 p.a ≤ 25 → u.res0 = p.a)

/-- 41_affine_datapath.md R130: for a key that KEYSET loaded, KEYV = 1 exactly for a > 0 coprime to 26; then DEC_CHAR of
ENC_CHAR of any 32-bit code is that code; otherwise DEC_CHAR raises INVALID_KEY. -/
def Obligations.CharacterRoundTrip : Prop :=
  ∀ (s k : State) (p : Snapshot) (n : Nat), s.seq = .busy p n → exec .keyset s = .next k →
    (k.keyv = true ↔ 0 < sext32 p.a ∧ Int.gcd (sext32 p.a) 26 = 1) ∧
    (k.keyv = true → ∀ (c b : Word) (m : Nat), ∃ t u,
      exec .encChar { k with seq := .busy ⟨6#32, c, b, k.keya, k.keyb, k.keyinv, k.keyv⟩ m } = .next t ∧
      exec .decChar { k with seq := .busy ⟨7#32, t.res0, b, k.keya, k.keyb, k.keyinv, k.keyv⟩ m } = .next u ∧
      u.res0 = c ∧ u.errcode = .none) ∧
    (k.keyv = false → ∀ (c b : Word) (m : Nat), ∃ u,
      exec .decChar { k with seq := .busy ⟨7#32, c, b, k.keya, k.keyb, k.keyinv, k.keyv⟩ m } = .next u ∧
      u.errcode = .invalidKey)

/-- 41_affine_datapath.md R131: the four datapath commands see kb modulo 26 only, the two encrypting ones see ka modulo
26 only; KEYV can differ between two such a. -/
def Obligations.KeyReductionModulo26 : Prop :=
  (∀ (s : State) (p : Snapshot) (n : Nat) (kb' : Word), s.seq = .busy p n →
    (26 : Int) ∣ sext32 p.kb - sext32 kb' →
    ∀ i ∈ [Instr.encIdx, .decIdx, .encChar, .decChar],
      exec i s = exec i { s with seq := .busy { p with kb := kb' } n }) ∧
  (∀ (s : State) (p : Snapshot) (n : Nat) (ka' : Word), s.seq = .busy p n →
    (26 : Int) ∣ sext32 p.ka - sext32 ka' →
    ∀ i ∈ [Instr.encIdx, .encChar], exec i s = exec i { s with seq := .busy { p with ka := ka' } n }) ∧
  (∃ a a' b : Word, (26 : Int) ∣ sext32 a - sext32 a' ∧ (keyFrom a b).keyv = true ∧ (keyFrom a' b).keyv = false)

/-- 41_affine_datapath.md R132: the character commands keep a letter in its case range and a non-letter as it is. -/
def Obligations.CharactersKeepTheirCase : Prop :=
  ∀ (s t : State) (p : Snapshot) (n : Nat) (i : Instr), s.seq = .busy p n → i = .encChar ∨ i = .decChar →
    exec i s = .next t → t.errcode = .none →
    (0x41 ≤ p.a.toNat ∧ p.a.toNat ≤ 0x5A → 0x41 ≤ t.res0.toNat ∧ t.res0.toNat ≤ 0x5A) ∧
    (0x61 ≤ p.a.toNat ∧ p.a.toNat ≤ 0x7A → 0x61 ≤ t.res0.toNat ∧ t.res0.toNat ≤ 0x7A) ∧
    (¬(0x41 ≤ p.a.toNat ∧ p.a.toNat ≤ 0x5A) → ¬(0x61 ≤ p.a.toNat ∧ p.a.toNat ≤ 0x7A) → t.res0 = p.a)

/-! ## Errors and frames -/

/-- 42_control.md R152: an error completion, of every command and of every illegal word, changes ERRCODE, BUSY, DONE and
seq, and nothing else. -/
def Obligations.ErrorCompletionWritesNothing : Prop :=
  (∀ (i : Instr) (s t : State), exec i s = .next t → t.errcode ≠ .none →
    t = { s with errcode := t.errcode, done := true, seq := .idle }) ∧
  (∀ (w : Word) (s t : State), completeWord w s = .next t → t.errcode ≠ .none →
    t = { s with errcode := t.errcode, done := true, seq := .idle })

/-- 60_exceptions.md R162: the check that fails first is the one reported: decode before all operands; MODINV's g before
m; DEC_*'s KEYV before the operand. -/
def Obligations.FirstFailingCheckIsReported : Prop :=
  ∀ (s : State) (p : Snapshot) (n : Nat), s.seq = .busy p n →
    ((∀ i, p.cmd ≠ encode i) → ∃ t, completeWord p.cmd s = .next t ∧ t.errcode = .illegalCmd) ∧
    ((egcd (sext32 p.a) (sext32 p.b)).g ≠ 1 → sext32 p.b = 0 →
      ∃ t, exec .modinv s = .next t ∧ t.errcode = .invalidKey) ∧
    (p.kv = false → ∀ i, i = .decIdx ∨ i = .decChar → ∃ t, exec i s = .next t ∧ t.errcode = .invalidKey) ∧
    (∃ t, exec .egcd s = .next t ∧ (t.errcode = .none ∨ t.errcode = .overflow))

/-- 10_state.md R39 and 42_control.md R151: the frame of every command. No completion writes IE, DROP, OPA, OPB or moves
the edge labels; RES1 and RES2 are EGCD's, the key is KEYSET's, RES0 is not NOP's nor KEYSET's. -/
def Obligations.CompletionFrame : Prop :=
  ∀ (i : Instr) (s t : State), exec i s = .next t →
    t.ie = s.ie ∧ t.drop = s.drop ∧ t.opa = s.opa ∧ t.opb = s.opb ∧ t.edges = s.edges ∧ t.accepted = s.accepted ∧
    t.done = true ∧ t.seq = .idle ∧
    (i ≠ .egcd → t.res1 = s.res1 ∧ t.res2 = s.res2) ∧
    (i = .nop ∨ i = .keyset → t.res0 = s.res0) ∧
    (i ≠ .keyset → t.keya = s.keya ∧ t.keyb = s.keyb ∧ t.keyinv = s.keyinv ∧ t.keyv = s.keyv)

/-! ## Whole-machine rules and invariants -/

/-- 41_affine_datapath.md R120, 70_reset_and_hazards.md R203: at an edge without reset the key changes only where a
KEYSET completes. -/
def Obligations.KeyChangesOnlyByKeyset : Prop :=
  ∀ s t : State, step s = .next t → s.nextEdge.rst = false →
    t.keya ≠ s.keya ∨ t.keyb ≠ s.keyb ∨ t.keyinv ≠ s.keyinv ∨ t.keyv ≠ s.keyv →
    ∃ p, s.seq = .busy p 0 ∧ decode p.cmd = .legal .keyset

/-- 10_state.md R28, R29, R30: at an edge without reset the result registers change only where a command that writes
them completes without error. -/
def Obligations.ResultsChangeOnlyAtTheirCompletion : Prop :=
  ∀ s t : State, step s = .next t → s.nextEdge.rst = false →
    (t.res0 ≠ s.res0 → ∃ p i, s.seq = .busy p 0 ∧ decode p.cmd = .legal i ∧ i ≠ .nop ∧ i ≠ .keyset ∧
      t.errcode = .none) ∧
    (t.res1 ≠ s.res1 ∨ t.res2 ≠ s.res2 → ∃ p, s.seq = .busy p 0 ∧ decode p.cmd = .legal .egcd ∧ t.errcode = .none)

/-- The key invariant of 10_state.md R37 at reset. -/
def Obligations.KeyInvariantAtReset : Prop := State.reset.KeyInvariant

/-- The key invariant of 10_state.md R37 is kept by every step from every state that has it. -/
def Obligations.KeyInvariantKeptByStep : Prop :=
  ∀ s t : State, s.KeyInvariant → step s = .next t → t.KeyInvariant

/-- 10_state.md R37: every state the machine can be in satisfies the key invariant, for every behaviour of the host, every
reset and every latency. -/
def Obligations.KeyInvariantInReachableStates : Prop :=
  ∀ s : State, Reachable s →
    (s.keyv = true → 1 ≤ zext32 s.keyinv ∧ zext32 s.keyinv ≤ 25 ∧
      (sext32 s.keya * zext32 s.keyinv) % 26 = 1) ∧
    (s.keyv = false → s.keyinv = 0#32)

/-- While a command is in flight DONE and ERRCODE are 0 (20_memory.md R65, 42_control.md R154), and its snapshot's key is
the key in the registers (70_reset_and_hazards.md R203): kept by every step. -/
def Obligations.InFlightInvariantsKeptByStep : Prop :=
  ∀ s t : State, s.StatusInvariant → s.SnapshotKeyInvariant → step s = .next t →
    t.StatusInvariant ∧ t.SnapshotKeyInvariant

/-- The invariants of a command in flight hold at reset. -/
def Obligations.InFlightInvariantsAtReset : Prop :=
  State.reset.StatusInvariant ∧ State.reset.SnapshotKeyInvariant

/-! ## Host programs -/

/-- 30_encoding.md R78, 70_reset_and_hazards.md R205: POLL ends. From BUSY it reads STATUS once for each edge up to the
completing one and once more, and a bound of fewer reads is used up; the last word read has BUSY = 0, and the engine is
IDLE. The number of edges is the model's form of LAT (log 1) and POLL's bound is the model's own (log 14). -/
def Obligations.PollEnds : Prop :=
  ∀ s : State,
    (s.seq = .idle → poll 1 s = some (s, s.statusWord)) ∧
    (∀ p n, s.seq = .busy p n → poll (n + 1) s = none ∧ ∃ t, poll (n + 2) s = some (t, t.statusWord) ∧ t.seq = .idle ∧
      t.statusWord.getLsbD 0 = false ∧ t.statusWord.getLsbD 1 = true)

/-- 30_encoding.md R78, 20_memory.md R57, 42_control.md R151: EXEC from IDLE runs a command end to end, from its CMD
write over the free latency to the poll that sees it done: what it leaves is the command's completion on the operands
and key of before, with DROP cleared. The count of accepted commands is the model's choice (log 1), and so is POLL's
bound (log 14). -/
def Obligations.ExecRunsACommandEndToEnd : Prop :=
  ∀ (s : State) (i : Instr), s.seq = .idle →
    ∃ bound t u,
      exec i { s with
        seq := .busy ⟨encode i, s.opa, s.opb, s.keya, s.keyb, s.keyinv, s.keyv⟩ 0
        done := false
        errcode := .none
        drop := false } = .next u ∧
      t = { u with accepted := s.accepted + 1 } ∧
      execPoll bound i s = some (t, t.statusWord) ∧ t.seq = .idle ∧ t.done = true ∧ t.drop = false
end

