-- ==== Sys2Proof/Laws/NumberTheory.lean ====
section
/-! SUPPORT. The integer primitives as Mathlib knows them, and that the depth bound of the recursion does not matter. -/

namespace Sys2Proof.Machine

/-- fmod is core Lean's floored remainder. -/
theorem fmod_eq_int_fmod (n d : Int) : fmod n d = Int.fmod n d := by
  have h := Int.fmod_add_mul_fdiv n d
  simp only [fmod, fdiv]; omega

/-- For a positive divisor fmod is the Euclidean remainder (00_scope.md R14). -/
theorem fmod_eq_emod (n d : Int) (hd : 0 ≤ d) : fmod n d = n % d := by
  rw [fmod_eq_int_fmod, Int.fmod_eq_emod_of_nonneg n hd]

theorem fmod_modulus (n : Int) : fmod n modulus = n % 26 := fmod_eq_emod n 26 (by decide)

/-- The defining equation of the floored division (00_scope.md R14). -/
theorem fdiv_mul_add_fmod (n d : Int) : d * fdiv n d + fmod n d = n := by
  simp only [fmod]; omega

/-- |fmod(b, a)| < |a| for a != 0: what makes the recursion end (40_number_theory.md R103). -/
theorem fmod_natAbs_lt (b a : Int) (ha : a ≠ 0) : (fmod b a).natAbs < a.natAbs := by
  rw [fmod_eq_int_fmod]
  rcases lt_or_gt_of_ne ha with h | h
  · have h1 := Int.fmod_lt_of_pos (-b) (show 0 < -a by omega)
    have h2 := Int.fmod_nonneg_of_pos (-b) (show 0 < -a by omega)
    rw [Int.neg_fmod_neg] at h1 h2
    omega
  · have h1 := Int.fmod_lt_of_pos b h
    have h2 := Int.fmod_nonneg_of_pos b h
    omega

/-- Any bound above |a| gives the same triple. -/
theorem egcdFuel_bound_irrelevant (n m : Nat) (a b : Int) (hn : a.natAbs < n) (hm : a.natAbs < m) :
    egcdFuel n a b = egcdFuel m a b := by
  induction n generalizing m a b with
  | zero => omega
  | succ n ih =>
    cases m with
    | zero => omega
    | succ m =>
      by_cases ha : a = 0
      · simp [egcdFuel, ha]
      · have hlt := fmod_natAbs_lt b a ha
        simp only [egcdFuel, ha, if_false, ih m (fmod b a) a (by omega) (by omega)]

end Sys2Proof.Machine
end

