-- ==== Sys2Proof/Laws/State.lean ====
section
/-! SUPPORT. One lemma per field per update of the state, each true by rfl, so that no proof unfolds a record update. -/

namespace Sys2Proof.Machine

variable (s : State)

/-! ## popEdge -/

@[simp] theorem State.popEdge_ie : s.popEdge.ie = s.ie := rfl
@[simp] theorem State.popEdge_done : s.popEdge.done = s.done := rfl
@[simp] theorem State.popEdge_drop : s.popEdge.drop = s.drop := rfl
@[simp] theorem State.popEdge_errcode : s.popEdge.errcode = s.errcode := rfl
@[simp] theorem State.popEdge_keyv : s.popEdge.keyv = s.keyv := rfl
@[simp] theorem State.popEdge_opa : s.popEdge.opa = s.opa := rfl
@[simp] theorem State.popEdge_opb : s.popEdge.opb = s.opb := rfl
@[simp] theorem State.popEdge_res0 : s.popEdge.res0 = s.res0 := rfl
@[simp] theorem State.popEdge_res1 : s.popEdge.res1 = s.res1 := rfl
@[simp] theorem State.popEdge_res2 : s.popEdge.res2 = s.res2 := rfl
@[simp] theorem State.popEdge_keya : s.popEdge.keya = s.keya := rfl
@[simp] theorem State.popEdge_keyb : s.popEdge.keyb = s.keyb := rfl
@[simp] theorem State.popEdge_keyinv : s.popEdge.keyinv = s.keyinv := rfl
@[simp] theorem State.popEdge_seq : s.popEdge.seq = s.seq := rfl
@[simp] theorem State.popEdge_edges : s.popEdge.edges = s.edges.tail := rfl
@[simp] theorem State.popEdge_accepted : s.popEdge.accepted = s.accepted := rfl

/-! ## pushEdge -/

@[simp] theorem State.pushEdge_ie (e : Edge) : (s.pushEdge e).ie = s.ie := rfl
@[simp] theorem State.pushEdge_done (e : Edge) : (s.pushEdge e).done = s.done := rfl
@[simp] theorem State.pushEdge_drop (e : Edge) : (s.pushEdge e).drop = s.drop := rfl
@[simp] theorem State.pushEdge_errcode (e : Edge) : (s.pushEdge e).errcode = s.errcode := rfl
@[simp] theorem State.pushEdge_keyv (e : Edge) : (s.pushEdge e).keyv = s.keyv := rfl
@[simp] theorem State.pushEdge_opa (e : Edge) : (s.pushEdge e).opa = s.opa := rfl
@[simp] theorem State.pushEdge_opb (e : Edge) : (s.pushEdge e).opb = s.opb := rfl
@[simp] theorem State.pushEdge_res0 (e : Edge) : (s.pushEdge e).res0 = s.res0 := rfl
@[simp] theorem State.pushEdge_res1 (e : Edge) : (s.pushEdge e).res1 = s.res1 := rfl
@[simp] theorem State.pushEdge_res2 (e : Edge) : (s.pushEdge e).res2 = s.res2 := rfl
@[simp] theorem State.pushEdge_keya (e : Edge) : (s.pushEdge e).keya = s.keya := rfl
@[simp] theorem State.pushEdge_keyb (e : Edge) : (s.pushEdge e).keyb = s.keyb := rfl
@[simp] theorem State.pushEdge_keyinv (e : Edge) : (s.pushEdge e).keyinv = s.keyinv := rfl
@[simp] theorem State.pushEdge_seq (e : Edge) : (s.pushEdge e).seq = s.seq := rfl
@[simp] theorem State.pushEdge_edges (e : Edge) : (s.pushEdge e).edges = e :: s.edges := rfl
@[simp] theorem State.pushEdge_accepted (e : Edge) : (s.pushEdge e).accepted = s.accepted := rfl

/-! ## setCtrl -/

@[simp] theorem State.setCtrl_ie (v : Word) : (s.setCtrl v).ie = v.getLsbD 0 := rfl
@[simp] theorem State.setCtrl_done (v : Word) : (s.setCtrl v).done = s.done := rfl
@[simp] theorem State.setCtrl_drop (v : Word) : (s.setCtrl v).drop = s.drop := rfl
@[simp] theorem State.setCtrl_errcode (v : Word) : (s.setCtrl v).errcode = s.errcode := rfl
@[simp] theorem State.setCtrl_keyv (v : Word) : (s.setCtrl v).keyv = s.keyv := rfl
@[simp] theorem State.setCtrl_opa (v : Word) : (s.setCtrl v).opa = s.opa := rfl
@[simp] theorem State.setCtrl_opb (v : Word) : (s.setCtrl v).opb = s.opb := rfl
@[simp] theorem State.setCtrl_res0 (v : Word) : (s.setCtrl v).res0 = s.res0 := rfl
@[simp] theorem State.setCtrl_res1 (v : Word) : (s.setCtrl v).res1 = s.res1 := rfl
@[simp] theorem State.setCtrl_res2 (v : Word) : (s.setCtrl v).res2 = s.res2 := rfl
@[simp] theorem State.setCtrl_keya (v : Word) : (s.setCtrl v).keya = s.keya := rfl
@[simp] theorem State.setCtrl_keyb (v : Word) : (s.setCtrl v).keyb = s.keyb := rfl
@[simp] theorem State.setCtrl_keyinv (v : Word) : (s.setCtrl v).keyinv = s.keyinv := rfl
@[simp] theorem State.setCtrl_seq (v : Word) : (s.setCtrl v).seq = s.seq := rfl
@[simp] theorem State.setCtrl_edges (v : Word) : (s.setCtrl v).edges = s.edges := rfl
@[simp] theorem State.setCtrl_accepted (v : Word) : (s.setCtrl v).accepted = s.accepted := rfl

/-! ## clearDone -/

@[simp] theorem State.clearDone_ie : s.clearDone.ie = s.ie := rfl
@[simp] theorem State.clearDone_done : s.clearDone.done = false := rfl
@[simp] theorem State.clearDone_drop : s.clearDone.drop = s.drop := rfl
@[simp] theorem State.clearDone_errcode : s.clearDone.errcode = s.errcode := rfl
@[simp] theorem State.clearDone_keyv : s.clearDone.keyv = s.keyv := rfl
@[simp] theorem State.clearDone_opa : s.clearDone.opa = s.opa := rfl
@[simp] theorem State.clearDone_opb : s.clearDone.opb = s.opb := rfl
@[simp] theorem State.clearDone_res0 : s.clearDone.res0 = s.res0 := rfl
@[simp] theorem State.clearDone_res1 : s.clearDone.res1 = s.res1 := rfl
@[simp] theorem State.clearDone_res2 : s.clearDone.res2 = s.res2 := rfl
@[simp] theorem State.clearDone_keya : s.clearDone.keya = s.keya := rfl
@[simp] theorem State.clearDone_keyb : s.clearDone.keyb = s.keyb := rfl
@[simp] theorem State.clearDone_keyinv : s.clearDone.keyinv = s.keyinv := rfl
@[simp] theorem State.clearDone_seq : s.clearDone.seq = s.seq := rfl
@[simp] theorem State.clearDone_edges : s.clearDone.edges = s.edges := rfl
@[simp] theorem State.clearDone_accepted : s.clearDone.accepted = s.accepted := rfl

/-! ## setDrop -/

@[simp] theorem State.setDrop_ie : s.setDrop.ie = s.ie := rfl
@[simp] theorem State.setDrop_done : s.setDrop.done = s.done := rfl
@[simp] theorem State.setDrop_drop : s.setDrop.drop = true := rfl
@[simp] theorem State.setDrop_errcode : s.setDrop.errcode = s.errcode := rfl
@[simp] theorem State.setDrop_keyv : s.setDrop.keyv = s.keyv := rfl
@[simp] theorem State.setDrop_opa : s.setDrop.opa = s.opa := rfl
@[simp] theorem State.setDrop_opb : s.setDrop.opb = s.opb := rfl
@[simp] theorem State.setDrop_res0 : s.setDrop.res0 = s.res0 := rfl
@[simp] theorem State.setDrop_res1 : s.setDrop.res1 = s.res1 := rfl
@[simp] theorem State.setDrop_res2 : s.setDrop.res2 = s.res2 := rfl
@[simp] theorem State.setDrop_keya : s.setDrop.keya = s.keya := rfl
@[simp] theorem State.setDrop_keyb : s.setDrop.keyb = s.keyb := rfl
@[simp] theorem State.setDrop_keyinv : s.setDrop.keyinv = s.keyinv := rfl
@[simp] theorem State.setDrop_seq : s.setDrop.seq = s.seq := rfl
@[simp] theorem State.setDrop_edges : s.setDrop.edges = s.edges := rfl
@[simp] theorem State.setDrop_accepted : s.setDrop.accepted = s.accepted := rfl

/-! ## setOpa -/

@[simp] theorem State.setOpa_ie (v : Word) : (s.setOpa v).ie = s.ie := rfl
@[simp] theorem State.setOpa_done (v : Word) : (s.setOpa v).done = s.done := rfl
@[simp] theorem State.setOpa_drop (v : Word) : (s.setOpa v).drop = s.drop := rfl
@[simp] theorem State.setOpa_errcode (v : Word) : (s.setOpa v).errcode = s.errcode := rfl
@[simp] theorem State.setOpa_keyv (v : Word) : (s.setOpa v).keyv = s.keyv := rfl
@[simp] theorem State.setOpa_opa (v : Word) : (s.setOpa v).opa = v := rfl
@[simp] theorem State.setOpa_opb (v : Word) : (s.setOpa v).opb = s.opb := rfl
@[simp] theorem State.setOpa_res0 (v : Word) : (s.setOpa v).res0 = s.res0 := rfl
@[simp] theorem State.setOpa_res1 (v : Word) : (s.setOpa v).res1 = s.res1 := rfl
@[simp] theorem State.setOpa_res2 (v : Word) : (s.setOpa v).res2 = s.res2 := rfl
@[simp] theorem State.setOpa_keya (v : Word) : (s.setOpa v).keya = s.keya := rfl
@[simp] theorem State.setOpa_keyb (v : Word) : (s.setOpa v).keyb = s.keyb := rfl
@[simp] theorem State.setOpa_keyinv (v : Word) : (s.setOpa v).keyinv = s.keyinv := rfl
@[simp] theorem State.setOpa_seq (v : Word) : (s.setOpa v).seq = s.seq := rfl
@[simp] theorem State.setOpa_edges (v : Word) : (s.setOpa v).edges = s.edges := rfl
@[simp] theorem State.setOpa_accepted (v : Word) : (s.setOpa v).accepted = s.accepted := rfl

/-! ## setOpb -/

@[simp] theorem State.setOpb_ie (v : Word) : (s.setOpb v).ie = s.ie := rfl
@[simp] theorem State.setOpb_done (v : Word) : (s.setOpb v).done = s.done := rfl
@[simp] theorem State.setOpb_drop (v : Word) : (s.setOpb v).drop = s.drop := rfl
@[simp] theorem State.setOpb_errcode (v : Word) : (s.setOpb v).errcode = s.errcode := rfl
@[simp] theorem State.setOpb_keyv (v : Word) : (s.setOpb v).keyv = s.keyv := rfl
@[simp] theorem State.setOpb_opa (v : Word) : (s.setOpb v).opa = s.opa := rfl
@[simp] theorem State.setOpb_opb (v : Word) : (s.setOpb v).opb = v := rfl
@[simp] theorem State.setOpb_res0 (v : Word) : (s.setOpb v).res0 = s.res0 := rfl
@[simp] theorem State.setOpb_res1 (v : Word) : (s.setOpb v).res1 = s.res1 := rfl
@[simp] theorem State.setOpb_res2 (v : Word) : (s.setOpb v).res2 = s.res2 := rfl
@[simp] theorem State.setOpb_keya (v : Word) : (s.setOpb v).keya = s.keya := rfl
@[simp] theorem State.setOpb_keyb (v : Word) : (s.setOpb v).keyb = s.keyb := rfl
@[simp] theorem State.setOpb_keyinv (v : Word) : (s.setOpb v).keyinv = s.keyinv := rfl
@[simp] theorem State.setOpb_seq (v : Word) : (s.setOpb v).seq = s.seq := rfl
@[simp] theorem State.setOpb_edges (v : Word) : (s.setOpb v).edges = s.edges := rfl
@[simp] theorem State.setOpb_accepted (v : Word) : (s.setOpb v).accepted = s.accepted := rfl

/-! ## setSeq -/

@[simp] theorem State.setSeq_ie (q : Seq) : (s.setSeq q).ie = s.ie := rfl
@[simp] theorem State.setSeq_done (q : Seq) : (s.setSeq q).done = s.done := rfl
@[simp] theorem State.setSeq_drop (q : Seq) : (s.setSeq q).drop = s.drop := rfl
@[simp] theorem State.setSeq_errcode (q : Seq) : (s.setSeq q).errcode = s.errcode := rfl
@[simp] theorem State.setSeq_keyv (q : Seq) : (s.setSeq q).keyv = s.keyv := rfl
@[simp] theorem State.setSeq_opa (q : Seq) : (s.setSeq q).opa = s.opa := rfl
@[simp] theorem State.setSeq_opb (q : Seq) : (s.setSeq q).opb = s.opb := rfl
@[simp] theorem State.setSeq_res0 (q : Seq) : (s.setSeq q).res0 = s.res0 := rfl
@[simp] theorem State.setSeq_res1 (q : Seq) : (s.setSeq q).res1 = s.res1 := rfl
@[simp] theorem State.setSeq_res2 (q : Seq) : (s.setSeq q).res2 = s.res2 := rfl
@[simp] theorem State.setSeq_keya (q : Seq) : (s.setSeq q).keya = s.keya := rfl
@[simp] theorem State.setSeq_keyb (q : Seq) : (s.setSeq q).keyb = s.keyb := rfl
@[simp] theorem State.setSeq_keyinv (q : Seq) : (s.setSeq q).keyinv = s.keyinv := rfl
@[simp] theorem State.setSeq_seq (q : Seq) : (s.setSeq q).seq = q := rfl
@[simp] theorem State.setSeq_edges (q : Seq) : (s.setSeq q).edges = s.edges := rfl
@[simp] theorem State.setSeq_accepted (q : Seq) : (s.setSeq q).accepted = s.accepted := rfl

/-! ## accept -/

@[simp] theorem State.accept_ie (p : Snapshot) (n : Nat) : (s.accept p n).ie = s.ie := rfl
@[simp] theorem State.accept_done (p : Snapshot) (n : Nat) : (s.accept p n).done = false := rfl
@[simp] theorem State.accept_drop (p : Snapshot) (n : Nat) : (s.accept p n).drop = false := rfl
@[simp] theorem State.accept_errcode (p : Snapshot) (n : Nat) : (s.accept p n).errcode = .none := rfl
@[simp] theorem State.accept_keyv (p : Snapshot) (n : Nat) : (s.accept p n).keyv = s.keyv := rfl
@[simp] theorem State.accept_opa (p : Snapshot) (n : Nat) : (s.accept p n).opa = s.opa := rfl
@[simp] theorem State.accept_opb (p : Snapshot) (n : Nat) : (s.accept p n).opb = s.opb := rfl
@[simp] theorem State.accept_res0 (p : Snapshot) (n : Nat) : (s.accept p n).res0 = s.res0 := rfl
@[simp] theorem State.accept_res1 (p : Snapshot) (n : Nat) : (s.accept p n).res1 = s.res1 := rfl
@[simp] theorem State.accept_res2 (p : Snapshot) (n : Nat) : (s.accept p n).res2 = s.res2 := rfl
@[simp] theorem State.accept_keya (p : Snapshot) (n : Nat) : (s.accept p n).keya = s.keya := rfl
@[simp] theorem State.accept_keyb (p : Snapshot) (n : Nat) : (s.accept p n).keyb = s.keyb := rfl
@[simp] theorem State.accept_keyinv (p : Snapshot) (n : Nat) : (s.accept p n).keyinv = s.keyinv := rfl
@[simp] theorem State.accept_seq (p : Snapshot) (n : Nat) : (s.accept p n).seq = .busy p n := rfl
@[simp] theorem State.accept_edges (p : Snapshot) (n : Nat) : (s.accept p n).edges = s.edges := rfl
@[simp] theorem State.accept_accepted (p : Snapshot) (n : Nat) : (s.accept p n).accepted = s.accepted := rfl

/-! ## countAccepted -/

@[simp] theorem State.countAccepted_ie : s.countAccepted.ie = s.ie := rfl
@[simp] theorem State.countAccepted_done : s.countAccepted.done = s.done := rfl
@[simp] theorem State.countAccepted_drop : s.countAccepted.drop = s.drop := rfl
@[simp] theorem State.countAccepted_errcode : s.countAccepted.errcode = s.errcode := rfl
@[simp] theorem State.countAccepted_keyv : s.countAccepted.keyv = s.keyv := rfl
@[simp] theorem State.countAccepted_opa : s.countAccepted.opa = s.opa := rfl
@[simp] theorem State.countAccepted_opb : s.countAccepted.opb = s.opb := rfl
@[simp] theorem State.countAccepted_res0 : s.countAccepted.res0 = s.res0 := rfl
@[simp] theorem State.countAccepted_res1 : s.countAccepted.res1 = s.res1 := rfl
@[simp] theorem State.countAccepted_res2 : s.countAccepted.res2 = s.res2 := rfl
@[simp] theorem State.countAccepted_keya : s.countAccepted.keya = s.keya := rfl
@[simp] theorem State.countAccepted_keyb : s.countAccepted.keyb = s.keyb := rfl
@[simp] theorem State.countAccepted_keyinv : s.countAccepted.keyinv = s.keyinv := rfl
@[simp] theorem State.countAccepted_seq : s.countAccepted.seq = s.seq := rfl
@[simp] theorem State.countAccepted_edges : s.countAccepted.edges = s.edges := rfl
@[simp] theorem State.countAccepted_accepted : s.countAccepted.accepted = s.accepted + 1 := rfl

/-! ## applyWrites -/

@[simp] theorem State.applyWrites_ie (w : Writes) : (s.applyWrites w).ie = s.ie := rfl
@[simp] theorem State.applyWrites_done (w : Writes) : (s.applyWrites w).done = s.done := rfl
@[simp] theorem State.applyWrites_drop (w : Writes) : (s.applyWrites w).drop = s.drop := rfl
@[simp] theorem State.applyWrites_errcode (w : Writes) : (s.applyWrites w).errcode = s.errcode := rfl
@[simp] theorem State.applyWrites_keyv (w : Writes) : (s.applyWrites w).keyv = (w.key.getD s.key).keyv := rfl
@[simp] theorem State.applyWrites_opa (w : Writes) : (s.applyWrites w).opa = s.opa := rfl
@[simp] theorem State.applyWrites_opb (w : Writes) : (s.applyWrites w).opb = s.opb := rfl
@[simp] theorem State.applyWrites_res0 (w : Writes) : (s.applyWrites w).res0 = w.res0.getD s.res0 := rfl
@[simp] theorem State.applyWrites_res1 (w : Writes) : (s.applyWrites w).res1 = w.res1.getD s.res1 := rfl
@[simp] theorem State.applyWrites_res2 (w : Writes) : (s.applyWrites w).res2 = w.res2.getD s.res2 := rfl
@[simp] theorem State.applyWrites_keya (w : Writes) : (s.applyWrites w).keya = (w.key.getD s.key).keya := rfl
@[simp] theorem State.applyWrites_keyb (w : Writes) : (s.applyWrites w).keyb = (w.key.getD s.key).keyb := rfl
@[simp] theorem State.applyWrites_keyinv (w : Writes) : (s.applyWrites w).keyinv = (w.key.getD s.key).keyinv := rfl
@[simp] theorem State.applyWrites_seq (w : Writes) : (s.applyWrites w).seq = s.seq := rfl
@[simp] theorem State.applyWrites_edges (w : Writes) : (s.applyWrites w).edges = s.edges := rfl
@[simp] theorem State.applyWrites_accepted (w : Writes) : (s.applyWrites w).accepted = s.accepted := rfl

/-! ## finish -/

@[simp] theorem State.finish_ie (c : ErrCode) : (s.finish c).ie = s.ie := rfl
@[simp] theorem State.finish_done (c : ErrCode) : (s.finish c).done = true := rfl
@[simp] theorem State.finish_drop (c : ErrCode) : (s.finish c).drop = s.drop := rfl
@[simp] theorem State.finish_errcode (c : ErrCode) : (s.finish c).errcode = c := rfl
@[simp] theorem State.finish_keyv (c : ErrCode) : (s.finish c).keyv = s.keyv := rfl
@[simp] theorem State.finish_opa (c : ErrCode) : (s.finish c).opa = s.opa := rfl
@[simp] theorem State.finish_opb (c : ErrCode) : (s.finish c).opb = s.opb := rfl
@[simp] theorem State.finish_res0 (c : ErrCode) : (s.finish c).res0 = s.res0 := rfl
@[simp] theorem State.finish_res1 (c : ErrCode) : (s.finish c).res1 = s.res1 := rfl
@[simp] theorem State.finish_res2 (c : ErrCode) : (s.finish c).res2 = s.res2 := rfl
@[simp] theorem State.finish_keya (c : ErrCode) : (s.finish c).keya = s.keya := rfl
@[simp] theorem State.finish_keyb (c : ErrCode) : (s.finish c).keyb = s.keyb := rfl
@[simp] theorem State.finish_keyinv (c : ErrCode) : (s.finish c).keyinv = s.keyinv := rfl
@[simp] theorem State.finish_seq (c : ErrCode) : (s.finish c).seq = .idle := rfl
@[simp] theorem State.finish_edges (c : ErrCode) : (s.finish c).edges = s.edges := rfl
@[simp] theorem State.finish_accepted (c : ErrCode) : (s.finish c).accepted = s.accepted := rfl

/-! ## the views of the status word depend on these fields only -/

theorem State.busy_of_seq_idle (h : s.seq = .idle) : s.busy = false := by simp [State.busy, h]

theorem State.busy_of_seq_busy (p : Snapshot) (n : Nat) (h : s.seq = .busy p n) : s.busy = true := by
  simp [State.busy, h]

theorem State.completes_of_left_zero (p : Snapshot) (h : s.seq = .busy p 0) : s.completes = true := by
  simp [State.completes, h]

theorem State.completes_of_left_succ (p : Snapshot) (n : Nat) (h : s.seq = .busy p (n + 1)) :
    s.completes = false := by
  simp [State.completes, h]

theorem State.completes_of_seq_idle (h : s.seq = .idle) : s.completes = false := by simp [State.completes, h]

/-- BUSY is read off the sequencer alone. -/
theorem State.busy_eq_true_iff : s.busy = true ↔ ∃ p n, s.seq = .busy p n := by
  cases h : s.seq <;> simp [State.busy, h]

end Sys2Proof.Machine
end

