-- ==== Sys2Proof/Laws/Ops.lean ====
section
/-! SUPPORT. One lemma per shared operation of Machine/Ops.lean that says all it can do. -/

namespace Sys2Proof.Machine

/-! ## the common completion -/

/-- All a completion can do: it needs a command in flight, and retires that command's outcome. -/
theorem complete_eq_next_iff (rule : Snapshot → CmdOutcome) (s t : State) :
    complete rule s = .next t ↔ ∃ p n, s.seq = .busy p n ∧ t = s.retire (rule p) := by
  unfold complete
  cases h : s.seq with
  | idle => simp
  | busy p n => simp [eq_comm]

theorem complete_busy (rule : Snapshot → CmdOutcome) (s : State) (p : Snapshot) (n : Nat) (h : s.seq = .busy p n) :
    complete rule s = .next (s.retire (rule p)) :=
  (complete_eq_next_iff rule s _).2 ⟨p, n, h, rfl⟩

theorem complete_idle (rule : Snapshot → CmdOutcome) (s : State) (h : s.seq = .idle) :
    complete rule s = .fault .noCommandInFlight := by
  simp [complete, h]

/-- The error code an outcome leaves. -/
def CmdOutcome.code : CmdOutcome → ErrCode
  | .ok _ => .none
  | .err c => c

/-- The register writes an outcome makes: none on an error (42_control.md R152). -/
def CmdOutcome.writes : CmdOutcome → Writes
  | .ok w => w
  | .err _ => .nothing

@[simp] theorem State.applyWrites_nothing (s : State) : s.applyWrites .nothing = s := rfl

/-- A retirement is its writes and then the common status effects. -/
theorem State.retire_eq (s : State) (o : CmdOutcome) : s.retire o = (s.applyWrites o.writes).finish o.code := by
  cases o <;> rfl

@[simp] theorem State.retire_ie (s : State) (o : CmdOutcome) : (s.retire o).ie = s.ie := by simp [State.retire_eq]
@[simp] theorem State.retire_done (s : State) (o : CmdOutcome) : (s.retire o).done = true := by simp [State.retire_eq]
@[simp] theorem State.retire_drop (s : State) (o : CmdOutcome) : (s.retire o).drop = s.drop := by simp [State.retire_eq]
@[simp] theorem State.retire_errcode (s : State) (o : CmdOutcome) : (s.retire o).errcode = o.code := by
  simp [State.retire_eq]
@[simp] theorem State.retire_opa (s : State) (o : CmdOutcome) : (s.retire o).opa = s.opa := by simp [State.retire_eq]
@[simp] theorem State.retire_opb (s : State) (o : CmdOutcome) : (s.retire o).opb = s.opb := by simp [State.retire_eq]
@[simp] theorem State.retire_seq (s : State) (o : CmdOutcome) : (s.retire o).seq = .idle := by simp [State.retire_eq]
@[simp] theorem State.retire_edges (s : State) (o : CmdOutcome) : (s.retire o).edges = s.edges := by
  simp [State.retire_eq]
@[simp] theorem State.retire_accepted (s : State) (o : CmdOutcome) : (s.retire o).accepted = s.accepted := by
  simp [State.retire_eq]

/-- The data and key registers after a retirement are the outcome's writes over the old ones. -/
theorem State.retire_registers (s : State) (o : CmdOutcome) :
    (s.retire o).res0 = o.writes.res0.getD s.res0 ∧ (s.retire o).res1 = o.writes.res1.getD s.res1 ∧
    (s.retire o).res2 = o.writes.res2.getD s.res2 ∧ (s.retire o).key = o.writes.key.getD s.key := by
  simp [State.retire_eq, State.key]

/-! ## the host action -/

/-- All a command issue can do. -/
theorem issue_cases (σ : State) (v : Word) (t : State) :
    (σ.seq = .idle ∧ issue σ v t = (t.accept (σ.latch v) (σ.freeLatency v)).countAccepted) ∨
    (∃ p n, σ.seq = .busy p n ∧ issue σ v t = t.setDrop) := by
  unfold issue
  cases h : σ.seq with
  | idle => exact .inl ⟨rfl, rfl⟩
  | busy p n => exact .inr ⟨p, n, rfl, rfl⟩

/-- All a host action can do: nothing, or one of the six effects of 20_memory.md R55 and R57. -/
theorem hostAccess_cases (σ : State) (act : HostAction) (t : State) :
    hostAccess σ act t = t ∨
    (∃ v, act = .write Reg.ctrl.index v ∧ hostAccess σ act t = t.setCtrl v) ∨
    (∃ v, act = .write Reg.status.index v ∧ v.getLsbD 1 = true ∧ σ.completes = false ∧
      hostAccess σ act t = t.clearDone) ∨
    (∃ v, act = .write Reg.cmd.index v ∧ hostAccess σ act t = issue σ v t) ∨
    (∃ v, act = .write Reg.opa.index v ∧ hostAccess σ act t = t.setOpa v) ∨
    (∃ v, act = .write Reg.opb.index v ∧ hostAccess σ act t = t.setOpb v) := by
  cases act with
  | noAccess => exact .inl rfl
  | read i => exact .inl rfl
  | write i v =>
    have key : ∀ r : Reg, regAt i = some r → i = r.index := by
      revert i; decide
    simp only [hostAccess, hostWrite]
    cases hr : regAt i with
    | none => exact .inl rfl
    | some r =>
      have hi := key r hr
      subst hi
      cases r with
      | ctrl => exact .inr (.inl ⟨v, rfl, rfl⟩)
      | status =>
        by_cases hv : v.getLsbD 1 = true
        · cases hc : σ.completes with
          | false => exact .inr (.inr (.inl ⟨v, rfl, hv, rfl, by simp [hv]⟩))
          | true => exact .inl (by simp)
        · exact .inl (by rw [Bool.not_eq_true] at hv; simp only [hv, Bool.false_and, Bool.false_eq_true, if_false])
      | cmd => exact .inr (.inr (.inr (.inl ⟨v, rfl, rfl⟩)))
      | opa => exact .inr (.inr (.inr (.inr (.inl ⟨v, rfl, rfl⟩))))
      | opb => exact .inr (.inr (.inr (.inr (.inr ⟨v, rfl, rfl⟩))))
      | _ => exact .inl rfl

/-- No host action writes a result register, a key register or KEYV, and none moves the edge labels. -/
theorem hostAccess_frame (σ : State) (act : HostAction) (t : State) :
    (hostAccess σ act t).res0 = t.res0 ∧ (hostAccess σ act t).res1 = t.res1 ∧
    (hostAccess σ act t).res2 = t.res2 ∧ (hostAccess σ act t).key = t.key ∧
    (hostAccess σ act t).edges = t.edges := by
  obtain h | ⟨v, -, h⟩ | ⟨v, -, -, -, h⟩ | ⟨v, -, h⟩ | ⟨v, -, h⟩ | ⟨v, -, h⟩ := hostAccess_cases σ act t
  case inr.inr.inr.inl =>
    rw [h]
    obtain ⟨-, h'⟩ | ⟨p, n, -, h'⟩ := issue_cases σ v t <;> simp [h', State.key]
  all_goals simp [h, State.key]

end Sys2Proof.Machine
end

