-- ==== Sys2Proof/Laws/PerInstr.lean ====
section
/-! SUPPORT. Per-command lemmas, one per constructor of Instr (LAWS.json). -/

namespace Sys2Proof.Laws.CommandWord

/-- A command is well formed and its word has all bits above bit 2 zero (30_encoding.md R72). -/
def Statement (i : Instr) : Prop := i.wellFormed = true ∧ (encode i).toNat < 8

theorem nop : Statement .nop := by unfold Statement; decide
theorem egcd : Statement .egcd := by unfold Statement; decide
theorem modinv : Statement .modinv := by unfold Statement; decide
theorem keyset : Statement .keyset := by unfold Statement; decide
theorem encIdx : Statement .encIdx := by unfold Statement; decide
theorem decIdx : Statement .decIdx := by unfold Statement; decide
theorem encChar : Statement .encChar := by unfold Statement; decide
theorem decChar : Statement .decChar := by unfold Statement; decide

end Sys2Proof.Laws.CommandWord
end

