-- ==== Sys2Proof/Laws/Step.lean ====
section
/-! SUPPORT. All a step can do, said once (20_memory.md R56). -/

namespace Sys2Proof.Machine

/-- The rule of a command, as its meaning uses it. -/
def ruleOf (i : Instr) : Snapshot → CmdOutcome :=
  match i with
  | .nop => nopRule
  | .egcd => egcdRule
  | .modinv => modinvRule
  | .keyset => keysetRule
  | .encIdx => encIdxRule
  | .decIdx => decIdxRule
  | .encChar => encCharRule
  | .decChar => decCharRule

/-- Every meaning is the common completion of its command's rule (42_control.md R151). -/
theorem exec_eq_complete (i : Instr) (s : State) : exec i s = complete (ruleOf i) s := by
  cases i <;> rfl

/-- The rule of a command word, legal or not. -/
def wordRule (w : Word) : Snapshot → CmdOutcome :=
  match decode w with
  | .legal i => ruleOf i
  | .illegal _ => illegalRule

/-- Every completion, of a legal word or not, is the common completion of the word's rule. -/
theorem completeWord_eq_complete (w : Word) (s : State) : completeWord w s = complete (wordRule w) s := by
  unfold completeWord wordRule
  cases decode w with
  | legal i => exact exec_eq_complete i s
  | illegal _ => rfl

theorem completeWord_busy (w : Word) (s : State) (p : Snapshot) (n : Nat) (h : s.seq = .busy p n) :
    completeWord w s = .next (s.retire (wordRule w p)) := by
  rw [completeWord_eq_complete, complete_busy _ _ p n h]

/-- All the engine can do at an edge without reset. -/
theorem enginePhase_cases (s : State) :
    (s.seq = .idle ∧ enginePhase s = .next s) ∨
    (∃ p, s.seq = .busy p 0 ∧ enginePhase s = .next (s.retire (wordRule p.cmd p))) ∨
    (∃ p n, s.seq = .busy p (n + 1) ∧ enginePhase s = .next (s.setSeq (.busy p n))) := by
  unfold enginePhase
  cases h : s.seq with
  | idle => exact .inl ⟨rfl, rfl⟩
  | busy p n =>
    cases n with
    | zero => exact .inr (.inl ⟨p, rfl, completeWord_busy p.cmd s p 0 h⟩)
    | succ n => exact .inr (.inr ⟨p, n, rfl, rfl⟩)

/-- All a step can do: a reset edge, or one of the engine's three cases and then the host action. -/
theorem step_cases (s t : State) (h : step s = .next t) :
    (s.nextEdge.rst = true ∧ t = resetEdge s) ∨
    (s.nextEdge.rst = false ∧ ∃ u, t = (hostAccess s s.nextEdge.act u).popEdge ∧
      ((s.seq = .idle ∧ u = s) ∨
       (∃ p, s.seq = .busy p 0 ∧ u = s.retire (wordRule p.cmd p)) ∨
       (∃ p n, s.seq = .busy p (n + 1) ∧ u = s.setSeq (.busy p n)))) := by
  unfold step runEdge at h
  cases hr : s.nextEdge.rst with
  | true =>
    simp only [hr, if_true, Host.Outcome.next.injEq] at h
    exact .inl ⟨rfl, h.symm⟩
  | false =>
    simp only [hr, Bool.false_eq_true, if_false] at h
    obtain ⟨hs, he⟩ | ⟨p, hs, he⟩ | ⟨p, n, hs, he⟩ := enginePhase_cases s <;>
      rw [he] at h <;> simp only [afterEngine, Host.Outcome.next.injEq] at h
    · exact .inr ⟨rfl, _, h.symm, .inl ⟨hs, rfl⟩⟩
    · exact .inr ⟨rfl, _, h.symm, .inr (.inl ⟨p, hs, rfl⟩)⟩
    · exact .inr ⟨rfl, _, h.symm, .inr (.inr ⟨p, n, hs, rfl⟩)⟩

end Sys2Proof.Machine
end

