-- ==== Sys2Proof/Tests/Slice0.lean ====
section
/-! SUPPORT. Tests against the spec's own vectors (95_test_vectors.md, tables V1-V7 and program P3), the smoke tests of
WellFormed, and for every statement with hypotheses a concrete state and operands that meet them. -/

namespace Sys2Proof.Tests

open Sys2Proof.Machine

/-- A reset machine with a command in flight that completes at the coming edge. -/
def inFlight (cmd a b ka kb ki : Word) (kv : Bool) : State :=
  { State.reset with seq := .busy ⟨cmd, a, b, ka, kb, ki, kv⟩ 0 }

/-- The same with one edge of waiting before the completing edge. -/
def waiting (cmd a b ka kb ki : Word) (kv : Bool) : State :=
  { State.reset with seq := .busy ⟨cmd, a, b, ka, kb, ki, kv⟩ 1 }

/-- The state an outcome goes on in. -/
def nextOf (o : Host.Outcome State Fault Refusal) : Option State :=
  match o with
  | .next t => some t
  | .fault _ => none
  | .refused _ => none

/-- The host writes v to index i at the coming edge. -/
def writing (s : State) (i : RegIndex) (v : Word) : State := s.pushEdge ⟨false, .write i v⟩

/-! ## Decoding: words written out from the opcode map (30_encoding.md R72, table V6) -/

theorem test_decode_nop : decode 0b00000000000000000000000000000000#32 = .legal .nop := by decide
theorem test_decode_egcd : decode 0b00000000000000000000000000000001#32 = .legal .egcd := by decide
theorem test_decode_modinv : decode 0b00000000000000000000000000000010#32 = .legal .modinv := by decide
theorem test_decode_keyset : decode 0b00000000000000000000000000000011#32 = .legal .keyset := by decide
theorem test_decode_enc_idx : decode 0b00000000000000000000000000000100#32 = .legal .encIdx := by decide
theorem test_decode_dec_idx : decode 0b00000000000000000000000000000101#32 = .legal .decIdx := by decide
theorem test_decode_enc_char : decode 0b00000000000000000000000000000110#32 = .legal .encChar := by decide
theorem test_decode_dec_char : decode 0b00000000000000000000000000000111#32 = .legal .decChar := by decide
theorem test_decode_opcode_8 : decode 0x00000008#32 = .illegal .opcodeOutOfRange := by decide
theorem test_decode_opcode_15 : decode 0x0000000F#32 = .illegal .opcodeOutOfRange := by decide
theorem test_decode_reserved_bit_4 : decode 0x00000011#32 = .illegal .reservedBitsSet := by decide
theorem test_decode_reserved_bit_31 : decode 0x80000001#32 = .illegal .reservedBitsSet := by decide
theorem test_print_illegal : printWord 0xFFFFFFFF#32 = ("CMD 0xFFFFFFFF", false) := by decide
theorem test_print_digit_order : printWord 0x89ABCDE4#32 = ("CMD 0x89ABCDE4", false) := by decide
theorem test_table_word : decodeTableWord 32 7 = some .decChar ∧ decodeTableWord 32 8 = none := by decide

/-! ## WellFormed: an ill-formed term for each check -/

theorem test_wellFormed_refuses_rsvd : (CmdFields.mk 1#28 0#4).wellFormed = false := by decide
theorem test_wellFormed_refuses_opc : (CmdFields.mk 0#28 8#4).wellFormed = false := by decide
theorem test_wellFormed_accepts : (CmdFields.mk 0#28 7#4).wellFormed = true := by decide

/-! ## The commands (tables V1-V6), one completing edge each -/

theorem test_nop_clears_errcode :
    (nextOf (step { inFlight 0 0 0 0 0 0 false with errcode := .invalidKey })).map (·.statusWord) =
      some 0x00000002#32 := by decide

theorem test_egcd_240_46 :
    (nextOf (step (inFlight 1 240 46 0 0 0 false))).map (fun t => (t.res0, t.res1, t.res2)) =
      some (0x00000002#32, 0xFFFFFFF7#32, 0x0000002F#32) := by decide

theorem test_egcd_most_negative :
    (nextOf (step (inFlight 1 0x80000000 0x7FFFFFFF 0 0 0 false))).map (fun t => (t.res0, t.res1, t.res2)) =
      some (0xFFFFFFFF#32, 0x00000001#32, 0x00000001#32) := by decide

theorem test_modinv_3_minus7 :
    (nextOf (step (inFlight 2 3 0xFFFFFFF9 0 0 0 false))).map (fun t => (t.res0, t.statusWord)) =
      some (0xFFFFFFFE#32, 0x00000002#32) := by decide

theorem test_modinv_zero_modulus :
    (nextOf (step (inFlight 2 1 0 0 0 0 false))).map (fun t => (t.res0, t.statusWord)) =
      some (0#32, 0x00000026#32) := by decide

theorem test_keyset_5_8 :
    (nextOf (step (inFlight 3 5 8 0 0 0 false))).map (fun t => (t.keya, t.keyb, t.keyinv, t.statusWord)) =
      some (5#32, 8#32, 21#32, 0x00000102#32) := by decide

theorem test_keyset_minus1_3 :
    (nextOf (step (inFlight 3 0xFFFFFFFF 3 0 0 0 true))).map (fun t => (t.keya, t.keyb, t.keyinv, t.statusWord)) =
      some (0xFFFFFFFF#32, 3#32, 0#32, 0x00000002#32) := by decide

theorem test_enc_idx_negative :
    (nextOf (step (inFlight 4 0xFFFFFFE5 0 5 8 21 true))).map (·.res0) = some 3#32 := by decide

theorem test_enc_idx_extremes :
    (nextOf (step (inFlight 4 0x80000000 0 0x7FFFFFFF 0x80000000 17 true))).map (·.res0) = some 22#32 := by decide

theorem test_dec_idx_most_negative :
    (nextOf (step (inFlight 5 0x80000000 0 5 8 21 true))).map (·.res0) = some 4#32 := by decide

theorem test_dec_idx_without_key :
    (nextOf (step (inFlight 5 7 0 4 0 0 false))).map (fun t => (t.res0, t.statusWord)) =
      some (0#32, 0x00000016#32) := by decide

theorem test_enc_char_H :
    (nextOf (step (inFlight 6 0x48 0 5 8 21 true))).map (·.res0) = some 0x52#32 := by decide

theorem test_enc_char_low_byte_letter :
    (nextOf (step (inFlight 6 0x141 0 5 8 21 true))).map (·.res0) = some 0x141#32 := by decide

theorem test_dec_char_R :
    (nextOf (step (inFlight 7 0x52 0 5 8 21 true))).map (·.res0) = some 0x48#32 := by decide

theorem test_dec_char_without_key_non_letter :
    (nextOf (step (inFlight 7 0x20 0 4 0 0 false))).map (fun t => (t.res0, t.statusWord)) =
      some (0#32, 0x00000016#32) := by decide

theorem test_illegal_word :
    (nextOf (step (inFlight 0x10 0 0 0 0 0 false))).map (·.statusWord) = some 0x00000036#32 := by decide

/-! ## The bus (table V7) -/

theorem test_ctrl_reserved_bits :
    (nextOf (step (writing State.reset 1 0xFFFFFFFF))).map (·.rdata 1#4) = some 1#32 := by decide

theorem test_res0_read_only :
    (nextOf (step (writing State.reset 6 5))).map (·.rdata 6#4) = some 0#32 := by decide

theorem test_done_cleared :
    (nextOf (step (writing { State.reset with done := true } 2 2))).map (·.statusWord) = some 0#32 := by decide

theorem test_done_kept_without_bit_1 :
    (nextOf (step (writing { State.reset with done := true } 2 1))).map (·.statusWord) = some 2#32 := by decide

theorem test_completion_beats_clear :
    (nextOf (step (writing (inFlight 0 0 0 0 0 0 false) 2 2))).map (·.statusWord) = some 0x00000002#32 := by decide

theorem test_command_at_completing_edge_dropped :
    (nextOf (step (writing (inFlight 0 0 0 0 0 0 false) 3 0))).map (·.statusWord) = some 0x0000000A#32 := by decide

theorem test_operand_write_while_busy :
    (nextOf (step (writing (waiting 1 240 46 0 0 0 false) 4 27))).map (fun t => (t.opa, t.seq)) =
      some (27#32, .busy ⟨1, 240, 46, 0, 0, 0, false⟩ 0) := by decide

theorem test_reset_aborts :
    (nextOf (step ((inFlight 1 240 46 0 0 0 false).pushEdge ⟨true, .write 4 9⟩))).map (fun t => (t.res0, t.opa, t.seq)) =
      some (0#32, 0#32, .idle) := by decide

theorem test_accepted_command_snapshot :
    (nextOf (step (writing { State.reset with opa := 5, opb := 26, done := true, drop := true } 3 2))).map
      (fun t => (t.busy, t.done, t.drop)) = some (true, false, false) := by decide

theorem test_withFetchWord_runs_next :
    (nextOf (step ({ State.reset with opa := 5, opb := 26 }.withFetchWord 32 2))).map (·.res0) = some 21#32 := by decide

theorem test_ports_make_a_write : Edge.ofPorts false true 4 7 = ⟨false, .write 4 7⟩ := by decide

/-! ## Witnesses: the hypotheses of each statement are met -/

theorem witness_IllegalWordsByTheirFields :
    (0x00000010#32).extractLsb' 4 28 ≠ 0#28 ∧
    ((0x00000008#32).extractLsb' 4 28 = 0#28 ∧ 8 ≤ ((0x00000008#32).extractLsb' 0 4).toNat) ∧
    ((0x00000007#32).extractLsb' 4 28 = 0#28 ∧ ((0x00000007#32).extractLsb' 0 4).toNat < 8) := by decide

theorem illegal_word_8 (i : Instr) : 0x00000008#32 ≠ encode i := by cases i <;> decide
theorem illegal_word_16 (i : Instr) : 0x00000010#32 ≠ encode i := by cases i <;> decide

theorem witness_PrintedCommandWords : ∀ i, 0x00000008#32 ≠ encode i := illegal_word_8

theorem witness_ConversionsAreTwosComplement :
    (-(2 ^ 31) ≤ (-2147483648 : Int) ∧ (-2147483648 : Int) ≤ 2 ^ 32 - 1) ∧
    (-(2 ^ 31) ≤ (4294967295 : Int) ∧ (4294967295 : Int) ≤ 2 ^ 32 - 1) := by decide

theorem witness_FlooredDivision :
    ((26 : Int) ≠ 0 ∧ (0 : Int) < 26 ∧ (0 : Int) ≤ 25 ∧ (25 : Int) < 26 ∧ (26 : Int) ∣ -1 - 25) ∧
    ((-7 : Int) ≠ 0 ∧ (-7 : Int) < 0) := by decide

theorem witness_HostWritesReadBack :
    (writing State.reset 4 7).edges = ⟨false, .write 4#4 7#32⟩ :: [] ∧
    (writing (inFlight 1 1 1 0 0 0 false) 5 7).edges = ⟨false, .write 5#4 7#32⟩ :: [] ∧
    (writing (waiting 1 1 1 0 0 0 false) 1 3).edges = ⟨false, .write 1#4 3#32⟩ :: [] := by decide

theorem witness_CommandIssueAcceptedOrDropped :
    ((writing State.reset 3 9).edges = ⟨false, .write 3#4 9#32⟩ :: [] ∧ (writing State.reset 3 9).seq = .idle) ∧
    (writing (waiting 0 0 0 0 0 0 false) 3 9).seq = .busy ⟨0, 0, 0, 0, 0, 0, false⟩ (0 + 1) ∧
    (writing (inFlight 8 0 0 0 0 0 false) 3 9).seq = .busy ⟨8, 0, 0, 0, 0, 0, false⟩ 0 ∧
    decode 8#32 = .illegal .opcodeOutOfRange := by decide

theorem witness_SimultaneousEventsOrder :
    ((inFlight 1 1 1 0 0 0 false).pushEdge ⟨true, .write 3 1⟩).edges = ⟨true, .write 3#4 1#32⟩ :: [] ∧
    (writing (inFlight 1 1 1 0 0 0 false) 3 1).edges = ⟨false, .write 3#4 1#32⟩ :: [] ∧
    (writing (inFlight 1 1 1 0 0 0 false) 3 1).seq = .busy ⟨1, 1, 1, 0, 0, 0, false⟩ 0 := by decide

theorem witness_IrqFollowsEnableAndDone :
    ({ inFlight 0 0 0 0 0 0 false with ie := true, edges := [⟨false, .noAccess⟩] }.ie = true ∧
      { inFlight 0 0 0 0 0 0 false with ie := true, edges := [⟨false, .noAccess⟩] }.seq =
        .busy ⟨0, 0, 0, 0, 0, 0, false⟩ 0) ∧
    ((writing { State.reset with done := true } 1 1).done = true ∧ (1#32).getLsbD 0 = true) ∧
    ((writing { State.reset with done := true } 2 2).completes = false ∧ (2#32).getLsbD 1 = true) ∧
    (writing { State.reset with done := true } 3 0).seq = .idle ∧
    ((writing { State.reset with ie := true } 1 0).edges = [⟨false, .write 1#4 0#32⟩] ∧ (0#32).getLsbD 0 = false) ∧
    (State.reset.pushEdge ⟨true, .noAccess⟩).edges = [⟨true, .noAccess⟩] := by decide

theorem witness_SecondCommandAtNextEdgeIsDropped :
    { State.reset with edges := [⟨false, .write 3#4 1#32⟩, ⟨false, .write 3#4 2#32⟩] }.seq = .idle := by decide

theorem witness_StepRunsDecodedCommand :
    (writing (inFlight 2 5 26 0 0 0 false) 4 7).seq = .busy ⟨2, 5, 26, 0, 0, 0, false⟩ 0 ∧
    decode 2#32 = .legal .modinv ∧
    (writing (inFlight 2 5 26 0 0 0 false) 4 7).edges = ⟨false, .write 4#4 7#32⟩ :: [] := by decide

theorem witness_IllegalWordCompletesWithIllegalCmd :
    (∀ i, 0x00000010#32 ≠ encode i) ∧
    ((writing State.reset 3 0x10).seq = .idle ∧
      (writing State.reset 3 0x10).edges = ⟨false, .write 3#4 0x10#32⟩ :: []) ∧
    ((waiting 0x10 0 0 0 0 0 false).pushEdge .quiet).seq = .busy ⟨0x10, 0, 0, 0, 0, 0, false⟩ (0 + 1) ∧
    ((inFlight 0x10 0 0 0 0 0 false).pushEdge .quiet).seq = .busy ⟨0x10, 0, 0, 0, 0, 0, false⟩ 0 ∧
    ((inFlight 0x10 0 0 0 0 0 false).pushEdge .quiet).edges = ⟨false, .noAccess⟩ :: [] :=
  ⟨illegal_word_16, by decide⟩

theorem witness_QuietEdgeHoldsStateOrWaits :
    ((State.reset.pushEdge .quiet).edges = ⟨false, .noAccess⟩ :: [] ∧ (State.reset.pushEdge .quiet).seq = .idle) ∧
    ((waiting 1 1 1 0 0 0 false).pushEdge .quiet).edges = ⟨false, .noAccess⟩ :: [] ∧
    ((waiting 1 1 1 0 0 0 false).pushEdge .quiet).seq = .busy ⟨1, 1, 1, 0, 0, 0, false⟩ (0 + 1) := by decide

theorem witness_HostActionsLeaveCommandInFlightAlone :
    (writing (waiting 1 1 1 0 0 0 false) 3 0).seq = .busy ⟨1, 1, 1, 0, 0, 0, false⟩ (0 + 1) ∧
    (writing (waiting 1 1 1 0 0 0 false) 3 0).edges = ⟨false, .write 3#4 0#32⟩ :: [] := by decide

theorem witness_CommandCompletesAfterItsLatency :
    (writing (waiting 1 240 46 0 0 0 false) 4 1).seq = .busy ⟨1, 240, 46, 0, 0, 0, false⟩ 1 ∧
    ∀ e ∈ (writing (waiting 1 240 46 0 0 0 false) 4 1).edges.take (1 + 1), e.rst = false := by decide

theorem witness_OutcomeDependsOnSnapshotOnly :
    (writing (waiting 1 240 46 0 0 0 false) 4 1).seq = .busy ⟨1, 240, 46, 0, 0, 0, false⟩ 1 ∧
    { inFlight 1 240 46 0 0 0 false with opb := 3, ie := true }.seq = .busy ⟨1, 240, 46, 0, 0, 0, false⟩ 0 ∧
    (∀ e ∈ (writing (waiting 1 240 46 0 0 0 false) 4 1).edges.take (1 + 1), e.rst = false) ∧
    (∀ e ∈ { inFlight 1 240 46 0 0 0 false with opb := 3, ie := true }.edges.take (0 + 1), e.rst = false) ∧
    (writing (waiting 1 240 46 0 0 0 false) 4 1).key = { inFlight 1 240 46 0 0 0 false with opb := 3, ie := true }.key ∧
    (writing (waiting 1 240 46 0 0 0 false) 4 1).res0 = { inFlight 1 240 46 0 0 0 false with opb := 3, ie := true }.res0 ∧
    (writing (waiting 1 240 46 0 0 0 false) 4 1).res1 = { inFlight 1 240 46 0 0 0 false with opb := 3, ie := true }.res1 ∧
    (writing (waiting 1 240 46 0 0 0 false) 4 1).res2 =
      { inFlight 1 240 46 0 0 0 false with opb := 3, ie := true }.res2 := by decide

theorem witness_MeaningInIdleStops : State.reset.seq = .idle := by decide

theorem witness_NopCompletion : (inFlight 0 0 0 0 0 0 false).seq = .busy ⟨0, 0, 0, 0, 0, 0, false⟩ 0 := by decide

theorem witness_EgcdRecursion : (0 : Int) = 0 ∧ (46 : Int) ≠ 0 := by decide

theorem witness_EgcdLaws : ((0 : Int) = 0 ∧ (0 : Int) ≤ 0) ∧ (-4 : Int) ≠ 0 ∧ (0 : Int) < 4 := by decide

theorem witness_EgcdCompletion :
    (inFlight 1 0x80000000 6 0 0 0 false).seq = .busy ⟨1, 0x80000000, 6, 0, 0, 0, false⟩ 0 := by decide

theorem witness_EgcdNeverOverflows :
    (inFlight 1 0x80000000 0x80000000 0 0 0 false).seq = .busy ⟨1, 0x80000000, 0x80000000, 0, 0, 0, false⟩ 0 := by
  decide

theorem witness_ModinvCompletion :
    (inFlight 2 4 26 0 0 0 false).seq = .busy ⟨2, 4, 26, 0, 0, 0, false⟩ 0 ∧
    (egcd (sext32 4#32) (sext32 26#32)).g ≠ 1 ∧
    ((egcd (sext32 1#32) (sext32 0#32)).g = 1 ∧ sext32 0#32 = 0) ∧
    ((egcd (sext32 5#32) (sext32 26#32)).g = 1 ∧ sext32 26#32 ≠ 0) := by decide

theorem witness_ModinvSuccessIsTheInverse :
    (∃ t, (inFlight 2 3 0xFFFFFFF9 0 0 0 false).seq = .busy ⟨2, 3, 0xFFFFFFF9, 0, 0, 0, false⟩ 0 ∧
      exec .modinv (inFlight 2 3 0xFFFFFFF9 0 0 0 false) = .next t ∧ t.errcode = .none ∧ sext32 0xFFFFFFF9#32 < 0) ∧
    (∃ t, (inFlight 2 5 26 0 0 0 false).seq = .busy ⟨2, 5, 26, 0, 0, 0, false⟩ 0 ∧
      exec .modinv (inFlight 2 5 26 0 0 0 false) = .next t ∧ t.errcode = .none ∧ 0 < sext32 26#32 ∧
      (0 : Int) ≤ 21 ∧ (21 : Int) < sext32 26#32 ∧ sext32 26#32 ∣ sext32 5#32 * 21 - 1) :=
  ⟨⟨_, rfl, rfl, by decide, by decide⟩, ⟨_, rfl, rfl, by decide, by decide, by decide, by decide, by decide⟩⟩

theorem witness_ModinvOutcomeLaw :
    (inFlight 2 25 26 0 0 0 false).seq = .busy ⟨2, 25, 26, 0, 0, 0, false⟩ 0 ∧ sext32 26#32 = 26 ∧
    (0 : Int) ≤ sext32 25#32 ∧ sext32 25#32 ≤ 25 := by decide

theorem witness_KeysetCompletion :
    (inFlight 3 5 8 0 0 0 false).seq = .busy ⟨3, 5, 8, 0, 0, 0, false⟩ 0 ∧
    (egcd (sext32 5#32) 26).g = 1 ∧ (egcd (sext32 4#32) 26).g ≠ 1 := by decide

theorem witness_KeysetInverseIsModinvOf26 :
    ∃ u, (inFlight 3 5 8 0 0 0 false).seq = .busy ⟨3, 5, 8, 0, 0, 0, false⟩ 0 ∧
      exec .modinv { inFlight 3 5 8 0 0 0 false with seq := .busy ⟨3, 5, 26, 0, 0, 0, false⟩ 0 } = .next u ∧
      u.errcode = .none := ⟨_, rfl, rfl, by decide⟩

theorem witness_EncIdxCompletion :
    (inFlight 4 7 0 5 8 21 true).seq = .busy ⟨4, 7, 0, 5, 8, 21, true⟩ 0 := by decide

theorem witness_EncIdxDependsOnResidues :
    (inFlight 4 0xFFFFFFE5 0 27 0xFFFFFFFF 1 true).seq = .busy ⟨4, 0xFFFFFFE5, 0, 27, 0xFFFFFFFF, 1, true⟩ 0 := by
  decide

theorem witness_DecIdxCompletion :
    ((inFlight 5 7 0 5 8 21 true).seq = .busy ⟨5, 7, 0, 5, 8, 21, true⟩ 0) ∧
    ((inFlight 5 7 0 4 0 0 false).seq = .busy ⟨5, 7, 0, 4, 0, 0, false⟩ 0) := by decide

theorem witness_EncCharCompletion :
    (inFlight 6 0x5A 0 5 8 21 true).seq = .busy ⟨6, 0x5A, 0, 5, 8, 21, true⟩ 0 ∧
    (0x41 ≤ (0x5A#32).toNat ∧ (0x5A#32).toNat ≤ 0x5A) ∧ (0x61 ≤ (0x7A#32).toNat ∧ (0x7A#32).toNat ≤ 0x7A) ∧
    (¬(0x41 ≤ (0x5B#32).toNat ∧ (0x5B#32).toNat ≤ 0x5A) ∧ ¬(0x61 ≤ (0x5B#32).toNat ∧ (0x5B#32).toNat ≤ 0x7A)) := by
  decide

theorem witness_DecCharCompletion :
    (inFlight 7 0x41 0 5 8 21 true).seq = .busy ⟨7, 0x41, 0, 5, 8, 21, true⟩ 0 ∧
    (inFlight 7 0x20 0 4 0 0 false).seq = .busy ⟨7, 0x20, 0, 4, 0, 0, false⟩ 0 ∧
    (0x41 ≤ (0x41#32).toNat ∧ (0x41#32).toNat ≤ 0x5A) ∧ (0x61 ≤ (0x61#32).toNat ∧ (0x61#32).toNat ≤ 0x7A) ∧
    (¬(0x41 ≤ (0x60#32).toNat ∧ (0x60#32).toNat ≤ 0x5A) ∧ ¬(0x61 ≤ (0x60#32).toNat ∧ (0x60#32).toNat ≤ 0x7A)) := by
  decide

theorem key_5_21_ok : KeyOk 5#32 21#32 true := by
  refine ⟨fun _ => by decide, by decide⟩

theorem witness_IndexRoundTrip :
    (inFlight 4 25 0 5 8 21 true).seq = .busy ⟨4, 25, 0, 5, 8, 21, true⟩ 0 ∧ KeyOk 5#32 21#32 true ∧
    (0 : Int) ≤ sext32 25#32 ∧ sext32 25#32 ≤ 25 := ⟨by decide, key_5_21_ok, by decide⟩

theorem witness_CharacterRoundTrip :
    (∃ k, (inFlight 3 5 8 0 0 0 false).seq = .busy ⟨3, 5, 8, 0, 0, 0, false⟩ 0 ∧
      exec .keyset (inFlight 3 5 8 0 0 0 false) = .next k ∧ k.keyv = true) ∧
    (∃ k, (inFlight 3 0xFFFFFFFF 8 0 0 0 false).seq = .busy ⟨3, 0xFFFFFFFF, 8, 0, 0, 0, false⟩ 0 ∧
      exec .keyset (inFlight 3 0xFFFFFFFF 8 0 0 0 false) = .next k ∧ k.keyv = false) :=
  ⟨⟨_, rfl, rfl, by decide⟩, ⟨_, rfl, rfl, by decide⟩⟩

theorem witness_KeyReductionModulo26 :
    (inFlight 4 7 0 5 8 21 true).seq = .busy ⟨4, 7, 0, 5, 8, 21, true⟩ 0 ∧
    (26 : Int) ∣ sext32 8#32 - sext32 34#32 ∧ (26 : Int) ∣ sext32 5#32 - sext32 0xFFFFFFEB#32 := by decide

theorem witness_CharactersKeepTheirCase :
    ∃ t, (inFlight 7 0x52 0 5 8 21 true).seq = .busy ⟨7, 0x52, 0, 5, 8, 21, true⟩ 0 ∧
      exec .decChar (inFlight 7 0x52 0 5 8 21 true) = .next t ∧ t.errcode = .none := ⟨_, rfl, rfl, by decide⟩

theorem witness_ErrorCompletionWritesNothing :
    (∃ t, exec .modinv (inFlight 2 4 26 0 0 0 false) = .next t ∧ t.errcode ≠ .none) ∧
    (∃ t, completeWord 0x10 (inFlight 0x10 0 0 0 0 0 false) = .next t ∧ t.errcode ≠ .none) :=
  ⟨⟨_, rfl, by decide⟩, ⟨_, rfl, by decide⟩⟩

theorem witness_FirstFailingCheckIsReported :
    (∀ i, (0x00000010 : Word) ≠ encode i) ∧
    (inFlight 0x10 2 0 4 0 0 false).seq = .busy ⟨0x10, 2, 0, 4, 0, 0, false⟩ 0 ∧
    (egcd (sext32 2#32) (sext32 0#32)).g ≠ 1 ∧ sext32 0#32 = 0 := ⟨illegal_word_16, by decide⟩

theorem witness_CompletionFrame :
    (∃ t, exec .egcd (inFlight 1 240 46 0 0 0 false) = .next t) ∧
    (∃ t, exec .keyset (inFlight 3 5 8 0 0 0 false) = .next t) ∧
    (∃ t, exec .modinv (inFlight 2 5 26 0 0 0 false) = .next t) := ⟨⟨_, rfl⟩, ⟨_, rfl⟩, ⟨_, rfl⟩⟩

theorem witness_KeyChangesOnlyByKeyset :
    ∃ t, step (inFlight 3 5 8 0 0 0 false) = .next t ∧ (inFlight 3 5 8 0 0 0 false).nextEdge.rst = false ∧
      t.keya ≠ (inFlight 3 5 8 0 0 0 false).keya := ⟨_, rfl, rfl, by decide⟩

theorem witness_ResultsChangeOnlyAtTheirCompletion :
    (∃ t, step (inFlight 1 240 46 0 0 0 false) = .next t ∧ (inFlight 1 240 46 0 0 0 false).nextEdge.rst = false ∧
      t.res0 ≠ (inFlight 1 240 46 0 0 0 false).res0 ∧ t.res1 ≠ (inFlight 1 240 46 0 0 0 false).res1) :=
  ⟨_, rfl, rfl, by decide, by decide⟩

theorem witness_KeyInvariantKeptByStep :
    ∃ t, State.KeyInvariant { inFlight 3 25 25 0 0 0 false with keya := 5, keyb := 8, keyinv := 21, keyv := true } ∧
      step { inFlight 3 25 25 0 0 0 false with keya := 5, keyb := 8, keyinv := 21, keyv := true } = .next t :=
  ⟨_, key_5_21_ok, rfl⟩

/-- With no label left, a command in flight reaches its completing edge, however long its free latency is. -/
theorem reachable_completing_edge (p : Snapshot) (n : Nat) (s : State) (hs : Reachable s) (he : s.edges = [])
    (hq : s.seq = .busy p n) : Reachable (s.setSeq (.busy p 0)) := by
  induction n generalizing s with
  | zero =>
    have : s.setSeq (.busy p 0) = s := by cases s; simp_all [State.setSeq]
    exact this ▸ hs
  | succ n ih =>
    have hstep : step s = .next (s.setSeq (.busy p n)) := by
      simp [step, runEdge, State.nextEdge, he, Edge.quiet, enginePhase, hq, afterEngine, hostAccess, State.popEdge,
        State.setSeq]
    exact ih (s.setSeq (.busy p n)) (.step s _ hs hstep) he rfl

/-- A valid key is reachable: OPA, OPB and CMD written, then the command's latency. -/
theorem witness_KeyInvariantInReachableStates :
    (∃ s, Reachable s ∧ s.keyv = true) ∧ (∃ s, Reachable s ∧ s.keyv = false) := by
  refine ⟨?_, _, Reachable.reset [⟨false, .write 3 3⟩], rfl⟩
  have h0 := Reachable.reset [⟨false, .write 4 5⟩, ⟨false, .write 5 8⟩, ⟨false, .write 3 3⟩]
  have h3 := Reachable.step _ _ (.step _ _ (.step _ _ h0 rfl) rfl) rfl
  have h4 := reachable_completing_edge ⟨3, 5, 8, 0, 0, 0, false⟩ _ _ h3 rfl rfl
  exact ⟨_, .step _ _ h4 rfl, rfl⟩

theorem witness_InFlightInvariantsKeptByStep :
    ∃ t, (waiting 3 5 8 0 0 0 false).StatusInvariant ∧ (waiting 3 5 8 0 0 0 false).SnapshotKeyInvariant ∧
      step (waiting 3 5 8 0 0 0 false) = .next t := by
  refine ⟨_, fun _ => ⟨rfl, rfl⟩, ?_, rfl⟩
  intro p n h
  cases h
  exact ⟨rfl, rfl, rfl, rfl⟩

theorem witness_PollEnds :
    State.reset.seq = .idle ∧ (waiting 1 240 46 0 0 0 false).seq = .busy ⟨1, 240, 46, 0, 0, 0, false⟩ 1 := by decide

theorem witness_ExecRunsACommandEndToEnd : { State.reset with opa := 5, opb := 26, drop := true }.seq = .idle := by
  decide

end Sys2Proof.Tests
end

section
/-! The integer primitives of 00_scope.md R13, R14: the conversions between words and integers, and that fdiv is the floor
of the rational quotient with a remainder on the divisor's side of 0. -/

namespace Sys2Proof.Machine

/-! ### Conversions (R13) -/

/-- Bit 31 is the sign bit: it decides whether 2^32 is taken off the unsigned value. -/
theorem sext32_eq_ite_bit31 (w : Word) :
    sext32 w = if w.getLsbD 31 = true then (w.toNat : Int) - 2 ^ 32 else (w.toNat : Int) := by
  simp [sext32, BitVec.toInt_eq_msb_cond, BitVec.msb_eq_getLsbD_last]

/-- On every integer, not only on the range where the spec defines `word` (log 10). -/
theorem toNat_word (n : Int) : ((word n).toNat : Int) = n % 2 ^ 32 := by
  rw [word, BitVec.toNat_ofInt]
  exact Int.toNat_of_nonneg (Int.emod_nonneg n (by decide))

theorem fits32_iff (n : Int) : fits32 n = true ↔ -(2 ^ 31) ≤ n ∧ n ≤ 2 ^ 31 - 1 := by
  simp [fits32]

/-! ### Floored division (R14) -/

theorem fmod_nonneg_of_pos (n : Int) {d : Int} (hd : 0 < d) : 0 ≤ fmod n d := by
  rw [fmod_eq_int_fmod]
  exact Int.fmod_nonneg_of_pos n hd

theorem fmod_lt_of_pos (n : Int) {d : Int} (hd : 0 < d) : fmod n d < d := by
  rw [fmod_eq_int_fmod]
  exact Int.fmod_lt_of_pos n hd

/-- Negating both operands keeps the quotient. -/
theorem fdiv_neg_neg (n d : Int) : fdiv (-n) (-d) = fdiv n d :=
  Int.neg_fdiv_neg n d

/-- Negating both operands negates the remainder. -/
theorem fmod_neg_neg (n d : Int) : fmod (-n) (-d) = -fmod n d := by
  simp only [fmod_eq_int_fmod, Int.neg_fmod_neg]

theorem fmod_nonpos_of_neg (n : Int) {d : Int} (hd : d < 0) : fmod n d ≤ 0 := by
  have h := fmod_nonneg_of_pos (-n) (Int.neg_pos_of_neg hd)
  rw [fmod_neg_neg] at h
  omega

theorem lt_fmod_of_neg (n : Int) {d : Int} (hd : d < 0) : d < fmod n d := by
  have h := fmod_lt_of_pos (-n) (Int.neg_pos_of_neg hd)
  rw [fmod_neg_neg] at h
  omega

/-- A value of [0, d) congruent to n is the remainder. -/
theorem eq_fmod_of_dvd_sub {n d r : Int} (h0 : 0 ≤ r) (hlt : r < d) (hdvd : d ∣ n - r) : r = fmod n d := by
  have hmod : r % d = n % d := Int.modEq_iff_dvd.2 hdvd
  rw [fmod_eq_emod n d (by omega), ← hmod, Int.emod_eq_of_lt h0 hlt]

theorem fdiv_eq_floor_of_pos (n : Int) {d : Int} (hd : 0 < d) : fdiv n d = ⌊(n : ℚ) / (d : ℚ)⌋ := by
  lift d to ℕ using hd.le
  rw [fdiv, Int.fdiv_eq_ediv_of_nonneg n hd.le, Int.cast_natCast, Rat.floor_intCast_div_natCast]

/-- A negative divisor reduces to a positive one: n / d = (-n) / (-d) in both divisions. -/
theorem fdiv_eq_floor (n : Int) {d : Int} (hd : d ≠ 0) : fdiv n d = ⌊(n : ℚ) / (d : ℚ)⌋ := by
  rcases lt_or_gt_of_ne hd with hneg | hpos
  · rw [← fdiv_neg_neg, fdiv_eq_floor_of_pos (-n) (Int.neg_pos_of_neg hneg), Int.cast_neg, Int.cast_neg, neg_div_neg_eq]
  · exact fdiv_eq_floor_of_pos n hpos

/-- Settles O5, one lemma per conversion. -/
theorem conversionsAreTwosComplement : Obligations.ConversionsAreTwosComplement :=
  ⟨sext32_eq_ite_bit31, fun _ => rfl, fun n _ _ => toNat_word n, fits32_iff⟩

/-- Settles O6, from the floor lemma and the remainder's bounds on either sign of the divisor. -/
theorem flooredDivision : Obligations.FlooredDivision := fun n _ hd =>
  ⟨fdiv_eq_floor n hd, rfl,
    fun hpos => ⟨fmod_nonneg_of_pos n hpos, fmod_lt_of_pos n hpos, fun _ => eq_fmod_of_dvd_sub⟩,
    fun hneg => ⟨lt_fmod_of_neg n hneg, fmod_nonpos_of_neg n hneg⟩⟩

end Sys2Proof.Machine
end

section
/-! What a completion and a step write: the write set of each command's rule (10_state.md R39), the frame of a completion,
and where the result and key registers can change at all. -/

namespace Sys2Proof.Machine

/-! ### The write set of each command (R39) -/

/-- Only a success writes a register (42_control.md R152). -/
theorem CmdOutcome.code_eq_none_or_writes_eq_nothing (o : CmdOutcome) : o.code = .none ∨ o.writes = .nothing := by
  cases o with
  | ok w => exact .inl rfl
  | err c => exact .inr rfl

/-- All a command's rule can write. -/
theorem ruleOf_writes_cases (i : Instr) (p : Snapshot) :
    (ruleOf i p).writes = .nothing ∨
    (i = .egcd ∧ ∃ g x y, (ruleOf i p).writes = .results g x y) ∨
    (i = .keyset ∧ (ruleOf i p).writes = .keyOnly (keyFrom p.a p.b)) ∨
    (i ≠ .nop ∧ i ≠ .egcd ∧ i ≠ .keyset ∧ ∃ w, (ruleOf i p).writes = .res0Only w) := by
  cases i with
  | nop => exact .inl rfl
  | egcd =>
    simp only [ruleOf, egcdRule]
    split
    · exact .inr (.inl ⟨trivial, _, _, _, rfl⟩)
    · exact .inl rfl
  | modinv =>
    simp only [ruleOf, modinvRule]
    split
    · exact .inl rfl
    split
    · exact .inl rfl
    · exact .inr (.inr (.inr ⟨nofun, nofun, nofun, _, rfl⟩))
  | keyset => exact .inr (.inr (.inl ⟨rfl, rfl⟩))
  | encIdx => exact .inr (.inr (.inr ⟨nofun, nofun, nofun, _, rfl⟩))
  | encChar => exact .inr (.inr (.inr ⟨nofun, nofun, nofun, _, rfl⟩))
  | decIdx =>
    simp only [ruleOf, decIdxRule]
    split
    · exact .inr (.inr (.inr ⟨nofun, nofun, nofun, _, rfl⟩))
    · exact .inl rfl
  | decChar =>
    simp only [ruleOf, decCharRule]
    split
    · exact .inr (.inr (.inr ⟨nofun, nofun, nofun, _, rfl⟩))
    · exact .inl rfl

/-- RES1 and RES2 are EGCD's alone. -/
theorem ruleOf_writes_res1_res2 {i : Instr} (p : Snapshot) (hi : i ≠ .egcd) :
    (ruleOf i p).writes.res1 = none ∧ (ruleOf i p).writes.res2 = none := by
  obtain h | ⟨he, -⟩ | ⟨-, h⟩ | ⟨-, -, -, w, h⟩ := ruleOf_writes_cases i p
  · rw [h]; exact ⟨rfl, rfl⟩
  · exact absurd he hi
  · rw [h]; exact ⟨rfl, rfl⟩
  · rw [h]; exact ⟨rfl, rfl⟩

theorem ruleOf_writes_res0 {i : Instr} (p : Snapshot) (hi : i = .nop ∨ i = .keyset) :
    (ruleOf i p).writes.res0 = none := by
  obtain rfl | rfl := hi <;> rfl

/-- A key is KEYSET's, and it is the key made of the snapshot's operands. -/
theorem ruleOf_writes_key {i : Instr} {p : Snapshot} {k : KeyWrite} (hk : (ruleOf i p).writes.key = some k) :
    i = .keyset ∧ k = keyFrom p.a p.b := by
  obtain h | ⟨-, g, x, y, h⟩ | ⟨hi, h⟩ | ⟨-, -, -, w, h⟩ := ruleOf_writes_cases i p <;> rw [h] at hk
  · cases hk
  · cases hk
  · exact ⟨hi, (Option.some.inj hk).symm⟩
  · cases hk

theorem ruleOf_writes_key_eq_none {i : Instr} (p : Snapshot) (hi : i ≠ .keyset) : (ruleOf i p).writes.key = none :=
  Option.eq_none_iff_forall_ne_some.2 fun _ hk => hi (ruleOf_writes_key hk).1

/-- A word that writes anything is a command's, and completes without error. -/
theorem wordRule_writes_cases (w : Word) (p : Snapshot) :
    (wordRule w p).writes = .nothing ∨
    ∃ i, decode w = .legal i ∧ (wordRule w p).code = .none ∧ (wordRule w p).writes = (ruleOf i p).writes := by
  cases hd : decode w with
  | illegal why => exact .inl (by simp only [wordRule, hd]; rfl)
  | legal i =>
    have hr : wordRule w p = ruleOf i p := by simp only [wordRule, hd]
    obtain hc | hw := (wordRule w p).code_eq_none_or_writes_eq_nothing
    · exact .inr ⟨i, rfl, hc, by rw [hr]⟩
    · exact .inl hw

/-! ### The registers of a state against those of another -/

/-- The data and key registers of t are the writes w over those of s. -/
def State.HasWrites (t s : State) (w : Writes) : Prop :=
  t.res0 = w.res0.getD s.res0 ∧ t.res1 = w.res1.getD s.res1 ∧ t.res2 = w.res2.getD s.res2 ∧
  t.key = w.key.getD s.key

theorem State.HasWrites.nothing_refl (s : State) : s.HasWrites s .nothing := ⟨rfl, rfl, rfl, rfl⟩

theorem State.setSeq_hasWrites (s : State) (q : Seq) : (s.setSeq q).HasWrites s .nothing := ⟨rfl, rfl, rfl, rfl⟩

theorem State.retire_hasWrites (s : State) (o : CmdOutcome) : (s.retire o).HasWrites s o.writes :=
  s.retire_registers o

section
variable {s t : State} {i : Instr} {p : Snapshot}

theorem State.HasWrites.res0_eq (h : t.HasWrites s (ruleOf i p).writes) (hi : i = .nop ∨ i = .keyset) :
    t.res0 = s.res0 := by
  obtain ⟨h0, -⟩ := h
  rw [h0, ruleOf_writes_res0 p hi, Option.getD_none]

theorem State.HasWrites.res1_res2_eq (h : t.HasWrites s (ruleOf i p).writes) (hi : i ≠ .egcd) :
    t.res1 = s.res1 ∧ t.res2 = s.res2 := by
  obtain ⟨-, h1, h2, -⟩ := h
  obtain ⟨w1, w2⟩ := ruleOf_writes_res1_res2 p hi
  rw [h1, h2, w1, w2]
  exact ⟨rfl, rfl⟩

theorem State.HasWrites.key_eq (h : t.HasWrites s (ruleOf i p).writes) (hi : i ≠ .keyset) : t.key = s.key := by
  obtain ⟨-, -, -, hk⟩ := h
  rw [hk, ruleOf_writes_key_eq_none p hi, Option.getD_none]

end

/-- A host access and the passing of the edge leave the registers as the engine left them. -/
theorem State.HasWrites.hostAccess_popEdge {u s : State} {w : Writes} (h : u.HasWrites s w) (σ : State)
    (act : HostAction) : (hostAccess σ act u).popEdge.HasWrites s w := by
  obtain ⟨h0, h1, h2, hk⟩ := h
  obtain ⟨e0, e1, e2, ek, -⟩ := hostAccess_frame σ act u
  exact ⟨e0.trans h0, e1.trans h1, e2.trans h2, ek.trans hk⟩

/-- With a command in flight no host access writes ERRCODE: only an acceptance does. -/
theorem hostAccess_errcode_of_busy {σ : State} {p : Snapshot} {n : Nat} (hb : σ.seq = .busy p n) (act : HostAction)
    (t : State) : (hostAccess σ act t).errcode = t.errcode := by
  obtain h | ⟨v, -, h⟩ | ⟨v, -, -, -, h⟩ | ⟨v, -, h⟩ | ⟨v, -, h⟩ | ⟨v, -, h⟩ := hostAccess_cases σ act t
  case inr.inr.inr.inl => simp [h, issue, hb]
  all_goals simp [h]

/-! ### Completions and steps -/

/-- What a meaning that answers leaves: the registers written by the command's rule, the rest as in R151. -/
theorem exec_eq_next {i : Instr} {s t : State} (h : exec i s = .next t) : ∃ p, t = s.retire (ruleOf i p) := by
  rw [exec_eq_complete, complete_eq_next_iff] at h
  obtain ⟨p, -, -, ht⟩ := h
  exact ⟨p, ht⟩

/-- At an edge without reset the data and key registers keep their values, or a legal command completes without error and
they take what its rule writes (10_state.md R28-R37). -/
theorem step_registers_cases {s t : State} (h : step s = .next t) (hr : s.nextEdge.rst = false) :
    t.HasWrites s .nothing ∨
    ∃ p i, s.seq = .busy p 0 ∧ decode p.cmd = .legal i ∧ t.errcode = .none ∧ t.HasWrites s (ruleOf i p).writes := by
  obtain ⟨hr', -⟩ | ⟨-, u, rfl, ⟨-, rfl⟩ | ⟨p, hs, rfl⟩ | ⟨p, n, -, rfl⟩⟩ := step_cases s t h
  · rw [hr] at hr'; cases hr'
  · exact .inl ((State.HasWrites.nothing_refl u).hostAccess_popEdge _ _)
  · have hw := (s.retire_hasWrites (wordRule p.cmd p)).hostAccess_popEdge s s.nextEdge.act
    obtain hn | ⟨i, hd, hc, hi⟩ := wordRule_writes_cases p.cmd p
    · exact .inl (hn ▸ hw)
    · refine .inr ⟨p, i, hs, hd, ?_, hi ▸ hw⟩
      rw [State.popEdge_errcode, hostAccess_errcode_of_busy hs, State.retire_errcode, hc]
  · exact .inl ((s.setSeq_hasWrites _).hostAccess_popEdge _ _)

/-- Settles O45, from the retirement's frame and the write set of each command. -/
theorem completionFrame : Obligations.CompletionFrame := by
  intro i s t h
  obtain ⟨p, rfl⟩ := exec_eq_next h
  have hw := s.retire_hasWrites (ruleOf i p)
  refine ⟨s.retire_ie _, s.retire_drop _, s.retire_opa _, s.retire_opb _, s.retire_edges _, s.retire_accepted _,
    s.retire_done _, s.retire_seq _, hw.res1_res2_eq, hw.res0_eq, fun hi => ?_⟩
  simpa [State.key] using hw.key_eq hi

/-- Settles O47: a register that changed was written, so its command's write set holds it. -/
theorem resultsChangeOnlyAtTheirCompletion : Obligations.ResultsChangeOnlyAtTheirCompletion := by
  intro s t h hr
  obtain ⟨h0, h1, h2, -⟩ | ⟨p, i, hs, hd, hc, hw⟩ := step_registers_cases h hr
  · exact ⟨fun hne => absurd h0 hne, fun hne => hne.elim (absurd h1) (absurd h2)⟩
  constructor
  · intro hne
    exact ⟨p, i, hs, hd, fun hi => hne (hw.res0_eq (.inl hi)), fun hi => hne (hw.res0_eq (.inr hi)), hc⟩
  · intro hne
    have hi : i = .egcd := by
      by_contra hi
      obtain ⟨e1, e2⟩ := hw.res1_res2_eq hi
      exact hne.elim (absurd e1) (absurd e2)
    exact ⟨p, hs, hi ▸ hd, hc⟩

/-- Settles O23: every meaning is the common completion, which has no case for IDLE. -/
theorem meaningInIdleStops : Obligations.MeaningInIdleStops := fun i s h => by
  rw [exec_eq_complete, complete_idle _ s h]

end Sys2Proof.Machine
end

section
/-! The key invariant of 10_state.md R37: KEYSET makes only keys that have it (41_affine_datapath.md R121), by the
combination that the extended Euclidean recursion keeps (40_number_theory.md R104), and no other event writes a key. -/

namespace Sys2Proof.Machine

/-! ### The inverse that KEYSET computes -/

/-- The recursion writes its g as a combination of its arguments, at every depth bound. -/
theorem egcdFuel_combination (n : Nat) (a b : Int) :
    a * (egcdFuel n a b).x + b * (egcdFuel n a b).y = (egcdFuel n a b).g := by
  induction n generalizing a b with
  | zero => simp [egcdFuel]
  | succ n ih =>
    by_cases ha : a = 0
    · simp [egcdFuel, ha]
    · have hrec := ih (fmod b a) a
      simp only [egcdFuel, ha, if_false]
      rw [← hrec, fmod]
      ring

theorem egcd_combination (a b : Int) : a * (egcd a b).x + b * (egcd a b).y = (egcd a b).g :=
  egcdFuel_combination _ a b

/-- With g = 1 the reduced coefficient inverts a modulo 26. -/
theorem mul_egcd_x_emod_modulus {a : Int} (hg : (egcd a modulus).g = 1) :
    a * ((egcd a modulus).x % 26) % 26 = 1 := by
  have hcomb : a * (egcd a modulus).x + 26 * (egcd a modulus).y = 1 := (egcd_combination a modulus).trans hg
  calc a * ((egcd a modulus).x % 26) % 26
      = a * (egcd a modulus).x % 26 := (Int.mod_modEq _ 26).mul_left a
    _ = 1 := by omega

/-- A remainder modulo 26 survives the way through a register word. -/
theorem zext32_word_emod_modulus (n : Int) : zext32 (word (n % 26)) = n % 26 := by
  rw [zext32, toNat_word]
  omega

/-- Every key that KEYSET makes satisfies the key invariant (41_affine_datapath.md R121). -/
theorem keyFrom_keyOk (a b : Word) : KeyOk (keyFrom a b).keya (keyFrom a b).keyinv (keyFrom a b).keyv := by
  by_cases hg : (egcd (sext32 a) modulus).g = 1
  · have hinv := mul_egcd_x_emod_modulus hg
    have hpos : (egcd (sext32 a) modulus).x % 26 ≠ 0 := by
      intro h0
      rw [h0] at hinv
      omega
    simp only [keyFrom, hg, if_true, KeyOk, fmod_modulus, zext32_word_emod_modulus]
    exact ⟨fun _ => ⟨by omega, by omega, hinv⟩, nofun⟩
  · simp only [keyFrom, hg, if_false, KeyOk]
    exact ⟨nofun, fun _ => trivial⟩

/-! ### Reset, step, and every reachable state -/

/-- The key invariant speaks of the key registers alone. -/
theorem State.keyInvariant_congr {s t : State} (h : t.key = s.key) : t.KeyInvariant ↔ s.KeyInvariant := by
  simp only [State.key, KeyWrite.mk.injEq] at h
  obtain ⟨ha, -, hi, hv⟩ := h
  rw [State.KeyInvariant, State.KeyInvariant, ha, hi, hv]

theorem State.keyInvariant_of_key_eq_keyFrom {t : State} {a b : Word} (h : t.key = keyFrom a b) : t.KeyInvariant := by
  have hok := keyFrom_keyOk a b
  rwa [← h] at hok

/-- Settles O48. -/
theorem keyInvariantAtReset : Obligations.KeyInvariantAtReset := ⟨nofun, fun _ => rfl⟩

/-- Settles O49: a step clears the key by reset, keeps it, or takes the key KEYSET made. -/
theorem keyInvariantKeptByStep : Obligations.KeyInvariantKeptByStep := by
  intro s t hs h
  obtain ⟨-, rfl⟩ | ⟨hr, -⟩ := step_cases s t h
  · exact (State.keyInvariant_congr rfl).2 keyInvariantAtReset
  obtain ⟨-, -, -, hk⟩ | ⟨p, i, -, -, -, -, -, -, hk⟩ := step_registers_cases h hr
  · exact (State.keyInvariant_congr hk).2 hs
  · cases hw : (ruleOf i p).writes.key with
    | none => exact (State.keyInvariant_congr (by rw [hk, hw, Option.getD_none])).2 hs
    | some k =>
      obtain ⟨-, rfl⟩ := ruleOf_writes_key hw
      exact State.keyInvariant_of_key_eq_keyFrom (by rw [hk, hw, Option.getD_some])

/-- What holds at reset and is kept by every step holds of every reachable state; here of the key invariant. -/
theorem Reachable.keyInvariant {s : State} (h : Reachable s) : s.KeyInvariant := by
  induction h with
  | reset es => exact (State.keyInvariant_congr rfl).2 keyInvariantAtReset
  | step s t _ h ih => exact keyInvariantKeptByStep s t ih h

/-- Settles O50, with fmod modulo 26 as the Euclidean remainder. -/
theorem keyInvariantInReachableStates : Obligations.KeyInvariantInReachableStates := by
  intro s h
  have hs := h.keyInvariant
  rwa [State.KeyInvariant, KeyOk, fmod_modulus] at hs

end Sys2Proof.Machine
end

section
/-! What the bus reads of STATUS, CTRL and the operands (10_state.md R22-R27), and that the operands and CTRL read back
what the host wrote at the edge before. -/

namespace Sys2Proof.Machine

/-! ### Reads by index -/

theorem State.rdata_status (s : State) : s.rdata 2#4 = s.statusWord := rfl
theorem State.rdata_ctrl (s : State) : s.rdata 1#4 = s.ctrlWord := rfl
theorem State.rdata_opa (s : State) : s.rdata 4#4 = s.opa := rfl
theorem State.rdata_opb (s : State) : s.rdata 5#4 = s.opb := rfl

theorem State.err_eq_decide (s : State) : s.err = decide (s.errcode ≠ .none) := by
  unfold State.err
  cases s.errcode <;> rfl

/-- The STATUS word bit by bit (R23). -/
theorem State.getLsbD_statusWord (s : State) (j : Nat) :
    s.statusWord.getLsbD j =
      if j = 0 then s.busy else if j = 1 then s.done else if j = 2 then s.err else if j = 3 then s.drop
      else if j < 8 then s.errcode.bits.getLsbD (j - 4) else if j = 8 then s.keyv else false := by
  unfold State.statusWord
  iterate 6 rw [BitVec.getLsbD_append]
  match j with
  | 0 | 1 | 2 | 3 | 4 | 5 | 6 | 7 | 8 | _ + 9 => simp

theorem State.statusWord_errcode_field (s : State) : s.statusWord.extractLsb' 4 4 = s.errcode.bits := by
  refine BitVec.eq_of_getLsbD_eq fun j hj => ?_
  rw [BitVec.getLsbD_extractLsb', State.getLsbD_statusWord]
  simp (disch := omega) only [if_pos, if_neg, hj, decide_true, Bool.true_and, Nat.add_sub_cancel_left]

theorem State.statusWord_upper_bits (s : State) : s.statusWord.extractLsb' 9 23 = 0#23 := by
  refine BitVec.eq_of_getLsbD_eq fun j _ => ?_
  rw [BitVec.getLsbD_extractLsb', State.getLsbD_statusWord]
  simp (disch := omega) only [if_neg, Bool.and_false, BitVec.getLsbD_zero]

/-! ### Writes that read back -/

/-- The engine never writes OPA or OPB (10_state.md R26, R27), and at every edge it answers a next state. -/
theorem enginePhase_operands (s : State) : ∃ u, enginePhase s = .next u ∧ u.opa = s.opa ∧ u.opb = s.opb := by
  obtain ⟨-, h⟩ | ⟨p, -, h⟩ | ⟨p, n, -, h⟩ := enginePhase_cases s <;> exact ⟨_, h, by simp, by simp⟩

/-- An edge with a host write is the engine's part, which keeps the operands, and then the write. -/
theorem step_write {s : State} {i : RegIndex} {v : Word} {es : List Edge} (h : s.edges = ⟨false, .write i v⟩ :: es) :
    ∃ u, step s = .next (hostWrite s i v u).popEdge ∧ u.opa = s.opa ∧ u.opb = s.opb := by
  obtain ⟨u, hu, ha, hb⟩ := enginePhase_operands s
  exact ⟨u, by simp [step, runEdge, State.nextEdge, h, hu, afterEngine, hostAccess], ha, hb⟩

/-- CTRL reads as bit 0 of the word written (R22). -/
theorem ctrlWord_of_ie_eq {t : State} {v : Word} (h : t.ie = v.getLsbD 0) : t.ctrlWord = v &&& 1#32 := by
  rw [State.ctrlWord, h, BitVec.and_one_eq_setWidth_ofBool_getLsbD]
  cases v.getLsbD 0 <;> rfl

/-- Settles O8, from the word's bits and its two wider fields. -/
theorem statusWordFields : Obligations.StatusWordFields := by
  refine ⟨⟨rfl, rfl, rfl, rfl, rfl⟩, fun s => ?_⟩
  have hbit := s.getLsbD_statusWord
  rw [State.rdata_status, ← s.err_eq_decide]
  exact ⟨hbit 0, hbit 1, hbit 2, hbit 3, s.statusWord_errcode_field, hbit 8, s.statusWord_upper_bits⟩

/-- Settles O10: each write is one register update after the engine's part. -/
theorem hostWritesReadBack : Obligations.HostWritesReadBack := by
  intro s v es
  refine ⟨fun h => ?_, fun h => ?_, fun h => ?_⟩ <;> obtain ⟨u, hu, ha, hb⟩ := step_write h
  · exact ⟨_, hu, rfl, hb⟩
  · exact ⟨_, hu, rfl, ha⟩
  · exact ⟨_, hu, ctrlWord_of_ie_eq rfl⟩

end Sys2Proof.Machine
end

section
/-! The edge without reset as the engine's part and then the host's (20_memory.md R56): what each index reads and what a
write to it does (R54, R55), the issue of a command (R57), and what a host access and a step leave alone while one is
in flight (R65). -/

namespace Sys2Proof

/-! ### Only the eight words of the map are legal (R72, R75) -/

theorem wordOf_fieldsOf (w : Word) : wordOf (fieldsOf w) = w :=
  (BitVec.extractLsb'_append_extractLsb'_eq_extractLsb' rfl).trans BitVec.extractLsb'_eq_self

/-- The opcode map gives a command only to its own opcode. -/
theorem opcodeMap_eq_some {opc : BitVec 4} {i : Instr} : opcodeMap opc = some i → i.fields = ⟨0#28, opc⟩ := by
  revert opc i
  decide

theorem eq_encode_of_decode_eq_legal {w : Word} {i : Instr} (h : decode w = .legal i) : w = encode i := by
  unfold decode at h
  split at h
  next hr =>
    split at h
    next j hj =>
      cases h
      have hrsvd : (fieldsOf w).rsvd = 0#28 := eq_of_beq hr
      rw [encode, opcodeMap_eq_some hj, ← hrsvd, wordOf_fieldsOf]
    next => cases h
  next => cases h

namespace Machine

/-- A word outside the map completes with ILLEGAL_CMD (42_control.md R153). -/
theorem wordRule_of_ne_encode {w : Word} (h : ∀ i, w ≠ encode i) (p : Snapshot) : wordRule w p = .err .illegalCmd := by
  unfold wordRule
  cases hd : decode w with
  | legal i => exact absurd (eq_encode_of_decode_eq_legal hd) (h i)
  | illegal _ => rfl

/-! ### The engine's part, and the edge around it (R56) -/

section
variable {s u : State} {p : Snapshot} {n : Nat}

theorem enginePhase_idle (h : s.seq = .idle) : enginePhase s = .next s := by
  simp [enginePhase, h]

theorem enginePhase_waiting (h : s.seq = .busy p (n + 1)) : enginePhase s = .next (s.setSeq (.busy p n)) := by
  simp [enginePhase, h]

theorem enginePhase_completing (h : s.seq = .busy p 0) :
    enginePhase s = .next (s.retire (wordRule p.cmd p)) := by
  simp [enginePhase, h, completeWord_busy p.cmd s p 0 h]

theorem State.retire_labels (s : State) (o : CmdOutcome) (l : List Edge) :
    State.retire { s with edges := l } o = { s.retire o with edges := l } := by
  cases o <;> rfl

/-- At every edge the engine answers a next state; it neither reads nor moves the edge labels, and accepts nothing. -/
theorem enginePhase_labels (s : State) : ∃ u, enginePhase s = .next u ∧ u.edges = s.edges ∧ u.accepted = s.accepted ∧
    ∀ l, enginePhase { s with edges := l } = .next { u with edges := l } := by
  obtain ⟨hs, h⟩ | ⟨p, hs, h⟩ | ⟨p, n, hs, h⟩ := enginePhase_cases s
  · exact ⟨_, h, rfl, rfl, fun l => enginePhase_idle hs⟩
  · refine ⟨_, h, s.retire_edges _, s.retire_accepted _, fun l => ?_⟩
    rw [← State.retire_labels]
    exact enginePhase_completing hs
  · exact ⟨_, h, rfl, rfl, fun l => enginePhase_waiting hs⟩

/-- An edge without reset is the engine's part, then the host action, and its label is used up. -/
theorem step_eq_of_enginePhase {act : HostAction} {es : List Edge} (h : s.edges = ⟨false, act⟩ :: es)
    (hu : enginePhase s = .next u) : step s = .next { hostAccess s act u with edges := es } := by
  obtain ⟨u', hu', he, -, -⟩ := enginePhase_labels s
  obtain rfl : u = u' := by simpa [hu] using hu'
  obtain ⟨-, -, -, -, hf⟩ := hostAccess_frame s act u
  simp [step, runEdge, State.nextEdge, h, hu, afterEngine, State.popEdge, hf, he]

end

/-- The host action neither reads nor moves the edge labels. -/
theorem hostAccess_labels (σ : State) (act : HostAction) (t : State) (l : List Edge) :
    hostAccess { σ with edges := l } act { t with edges := l } = { hostAccess σ act t with edges := l } := by
  cases act with
  | noAccess => rfl
  | read i => rfl
  | write i v =>
    simp only [hostAccess, hostWrite]
    cases regAt i with
    | none => rfl
    | some r =>
      cases r with
      | status =>
        have hc : State.completes { σ with edges := l } = σ.completes := rfl
        simp only [hc]
        cases v.getLsbD 1 && !σ.completes <;> rfl
      | cmd =>
        simp only [issue]
        cases σ.seq <;> rfl
      | _ => rfl

/-- The same edge under every host action: one state after the engine, then the action. -/
theorem step_relabelled (s : State) (es : List Edge) :
    ∃ u, u.accepted = s.accepted ∧
      ∀ act, step { s with edges := ⟨false, act⟩ :: es } = .next { hostAccess s act u with edges := es } := by
  obtain ⟨u, -, -, ha, hl⟩ := enginePhase_labels s
  exact ⟨u, ha, fun act => by rw [step_eq_of_enginePhase rfl (hl _), hostAccess_labels]⟩

/-! ### The host's write by index (R55) -/

/-- The indexes other than 1 to 5 ignore a write. -/
theorem hostWrite_ignored (σ : State) {i : RegIndex} (v : Word) (t : State) (h1 : i ≠ 1#4) (h2 : i ≠ 2#4)
    (h3 : i ≠ 3#4) (h4 : i ≠ 4#4) (h5 : i ≠ 5#4) : hostWrite σ i v t = t := by
  obtain h | ⟨_, h, -⟩ | ⟨_, h, -⟩ | ⟨_, h, -⟩ | ⟨_, h, -⟩ | ⟨_, h, -⟩ := hostAccess_cases σ (.write i v) t
  · exact h
  · cases h; exact absurd rfl h1
  · cases h; exact absurd rfl h2
  · cases h; exact absurd rfl h3
  · cases h; exact absurd rfl h4
  · cases h; exact absurd rfl h5

/-- A STATUS write clears DONE when bit 1 is set, unless a completion sets it at the same edge. -/
theorem hostWrite_status (σ : State) (v : Word) (t : State) :
    hostWrite σ 2#4 v t = if v.getLsbD 1 = true ∧ σ.completes = false then t.clearDone else t := by
  have h : hostWrite σ 2#4 v t = if v.getLsbD 1 && !σ.completes then t.clearDone else t := rfl
  simpa only [Bool.and_eq_true, Bool.not_eq_true'] using h

theorem hostWrite_cmd (σ : State) (v : Word) (t : State) : hostWrite σ 3#4 v t = issue σ v t := rfl

theorem issue_idle {σ : State} (h : σ.seq = .idle) (v : Word) (t : State) :
    issue σ v t = (t.accept (σ.latch v) (σ.freeLatency v)).countAccepted := by
  simp [issue, h]

theorem issue_busy {σ : State} {p : Snapshot} {n : Nat} (h : σ.seq = .busy p n) (v : Word) (t : State) :
    issue σ v t = t.setDrop := by
  simp [issue, h]

theorem State.seq_eq_idle_of_not_busy (s : State) (h : ¬ s.busy = true) : s.seq = .idle := by
  cases hs : s.seq with
  | idle => rfl
  | busy p n => exact absurd (s.busy_of_seq_busy p n hs) h

theorem State.key_eq_iff {s t : State} :
    t.key = s.key ↔ t.keya = s.keya ∧ t.keyb = s.keyb ∧ t.keyinv = s.keyinv ∧ t.keyv = s.keyv := by
  simp only [State.key, KeyWrite.mk.injEq]

/-! ### The host's access while a command is in flight (R65) -/

/-- A host action leaves the sequencer alone, or it is a CMD write accepted in IDLE. -/
theorem hostAccess_seq_cases (σ : State) (act : HostAction) (t : State) :
    (hostAccess σ act t).seq = t.seq ∨
    (σ.seq = .idle ∧ ∃ v, hostAccess σ act t = (t.accept (σ.latch v) (σ.freeLatency v)).countAccepted) := by
  obtain h | ⟨v, -, h⟩ | ⟨v, -, -, -, h⟩ | ⟨v, -, h⟩ | ⟨v, -, h⟩ | ⟨v, -, h⟩ := hostAccess_cases σ act t
  case inr.inr.inr.inl =>
    obtain ⟨hs, hi⟩ | ⟨p, n, hs, hi⟩ := issue_cases σ v t
    · exact .inr ⟨hs, v, h.trans hi⟩
    · exact .inl (by rw [h, hi, State.setDrop_seq])
  all_goals exact .inl (by simp [h])

section
variable {σ : State} {p : Snapshot} {n : Nat}

theorem hostAccess_seq_of_busy (hb : σ.seq = .busy p n) (act : HostAction) (t : State) :
    (hostAccess σ act t).seq = t.seq := by
  obtain h | ⟨hs, -⟩ := hostAccess_seq_cases σ act t
  · exact h
  · rw [hs] at hb
    cases hb

/-- With a command in flight a host action changes at most one of five fields, each by a write to its own index. -/
theorem hostAccess_flags_of_busy (hb : σ.seq = .busy p n) (act : HostAction) (t : State) :
    (hostAccess σ act t).accepted = t.accepted ∧
    ((hostAccess σ act t).done = t.done ∨ ((hostAccess σ act t).done = false ∧ ∃ v, act = .write 2#4 v)) ∧
    ((hostAccess σ act t).ie = t.ie ∨ ∃ v, act = .write 1#4 v) ∧
    ((hostAccess σ act t).opa = t.opa ∨ ∃ v, act = .write 4#4 v) ∧
    ((hostAccess σ act t).opb = t.opb ∨ ∃ v, act = .write 5#4 v) ∧
    ((hostAccess σ act t).drop = t.drop ∨ ((hostAccess σ act t).drop = true ∧ ∃ v, act = .write 3#4 v)) := by
  obtain h | ⟨v, rfl, h⟩ | ⟨v, rfl, -, -, h⟩ | ⟨v, rfl, h⟩ | ⟨v, rfl, h⟩ | ⟨v, rfl, h⟩ := hostAccess_cases σ act t <;>
    rw [h]
  case inr.inr.inr.inl => simp [issue_busy hb, Reg.index]
  all_goals simp [Reg.index]

end

/-! ### The invariants of a command in flight (R65, R154, R203) -/

/-- With no command in flight both invariants are empty. -/
theorem State.inFlightInvariants_of_seq_idle {t : State} (h : t.seq = .idle) :
    t.StatusInvariant ∧ t.SnapshotKeyInvariant := by
  constructor
  · intro hb
    rw [t.busy_of_seq_idle h] at hb
    cases hb
  · intro p n hp
    rw [h] at hp
    cases hp

/-- An acceptance clears DONE and ERRCODE, and latches the key of the moment. -/
theorem State.inFlightInvariants_accept (s : State) (v : Word) (n : Nat) :
    (s.accept (s.latch v) n).StatusInvariant ∧ (s.accept (s.latch v) n).SnapshotKeyInvariant := by
  refine ⟨fun _ => ⟨rfl, rfl⟩, fun p m hp => ?_⟩
  cases hp
  exact ⟨rfl, rfl, rfl, rfl⟩

theorem State.busy_congr {s t : State} (h : t.seq = s.seq) : t.busy = s.busy := by
  simp only [State.busy, h]

/-- With a command in flight before the edge, a host action keeps both invariants. -/
theorem State.inFlightInvariants_hostAccess {σ t : State} {p : Snapshot} {n : Nat} (hb : σ.seq = .busy p n)
    (act : HostAction) (hst : t.StatusInvariant) (hkey : t.SnapshotKeyInvariant) :
    (hostAccess σ act t).StatusInvariant ∧ (hostAccess σ act t).SnapshotKeyInvariant := by
  have hseq := hostAccess_seq_of_busy hb act t
  constructor
  · intro hbusy
    obtain ⟨hdone, herr⟩ := hst (State.busy_congr hseq ▸ hbusy)
    obtain ⟨-, hd, -⟩ := hostAccess_flags_of_busy hb act t
    exact ⟨hd.elim (·.trans hdone) And.left, (hostAccess_errcode_of_busy hb act t).trans herr⟩
  · intro q m hq
    obtain ⟨-, -, -, hk, -⟩ := hostAccess_frame σ act t
    obtain ⟨ha, hb, hi, hv⟩ := State.key_eq_iff.1 hk
    rw [ha, hb, hi, hv]
    exact hkey q m (hseq ▸ hq)

/-! ### The obligations -/

/-- Settles O7: the reads by index, and one state after the engine whether the host reads or does nothing. -/
theorem readsReturnRegistersWithoutEffect : Obligations.ReadsReturnRegistersWithoutEffect := by
  refine ⟨fun s => ⟨rfl, ?_, rfl, rfl, rfl, rfl, rfl, rfl, rfl, rfl, rfl, rfl, rfl, rfl, rfl, rfl⟩, fun _ _ => rfl,
    fun _ _ _ => rfl, fun _ => rfl, fun s i es => ?_⟩
  · rw [State.rdata_ctrl, State.ctrlWord]
    cases s.ie <;> rfl
  · obtain ⟨u, -, hu⟩ := step_relabelled s es
    rw [hu (.read i), hu .noAccess]
    rfl

/-- Settles O9: over the state the engine leaves, each index has its own effect. -/
theorem hostWriteEffectByIndex : Obligations.HostWriteEffectByIndex := by
  intro s i v es
  obtain ⟨u, ha, hu⟩ := step_relabelled s es
  refine ⟨{ u with edges := es }, hu .noAccess, (hu (.write i v)).trans ?_⟩
  rw [hostAccess]
  congr 1
  split_ifs with h1 h2 hd h3 hb h4 h5
  · subst h1; rfl
  · subst h2; rw [hostWrite_status, if_pos hd]; rfl
  · subst h2; rw [hostWrite_status, if_neg hd]
  · subst h3
    obtain ⟨p, n, hs⟩ := s.busy_eq_true_iff.1 hb
    rw [hostWrite_cmd, issue_busy hs]
    rfl
  · subst h3; rw [hostWrite_cmd, issue_idle (s.seq_eq_idle_of_not_busy hb), ← ha]; rfl
  · subst h4; rfl
  · subst h5; rfl
  · rw [hostWrite_ignored s v u h1 h2 h3 h4 h5]

/-- Settles O11: a CMD write is the issue, applied to what the engine leaves in each of its three cases. -/
theorem commandIssueAcceptedOrDropped : Obligations.CommandIssueAcceptedOrDropped := by
  intro s v es he
  refine ⟨fun hs => ⟨s.freeLatency v, ?_⟩, fun p n hs => ?_, fun p hs => ⟨_, completeWord_busy p.cmd s p 0 hs, ?_, ?_⟩⟩
  · rw [step_eq_of_enginePhase he (enginePhase_idle hs), hostAccess, hostWrite_cmd, issue_idle hs]
    rfl
  · rw [step_eq_of_enginePhase he (enginePhase_waiting hs), hostAccess, hostWrite_cmd, issue_busy hs]
    rfl
  · rw [step_eq_of_enginePhase he (enginePhase_completing hs), hostAccess, hostWrite_cmd, issue_busy hs]
    rfl
  · intro hw
    rw [State.retire_errcode, wordRule_of_ne_encode hw]
    rfl

/-- Settles O19: the engine only counts down, and the host action then has the frame of an action in BUSY. -/
theorem hostActionsLeaveCommandInFlightAlone : Obligations.HostActionsLeaveCommandInFlightAlone := by
  intro s p n act es hs he
  refine ⟨_, step_eq_of_enginePhase he (enginePhase_waiting hs), ?_⟩
  obtain ⟨h0, h1, h2, hk, -⟩ := hostAccess_frame s act (s.setSeq (.busy p n))
  obtain ⟨hacc, hflags⟩ := hostAccess_flags_of_busy hs act (s.setSeq (.busy p n))
  obtain ⟨ha, hb, hi, hv⟩ := State.key_eq_iff.1 hk
  exact ⟨hostAccess_seq_of_busy hs act _, h0, h1, h2, ha, hb, hi, hv, hostAccess_errcode_of_busy hs act _, rfl, hacc,
    hflags⟩

/-- Settles O51: after a step the command in flight was just accepted, or it waited and no access touched it. -/
theorem inFlightInvariantsKeptByStep : Obligations.InFlightInvariantsKeptByStep := by
  intro s t hst hkey h
  obtain ⟨-, rfl⟩ | ⟨-, u, rfl, hu⟩ := step_cases s t h
  · exact State.inFlightInvariants_of_seq_idle rfl
  obtain hseq | ⟨hidle, v, hacc⟩ := hostAccess_seq_cases s s.nextEdge.act u
  · obtain ⟨hs, rfl⟩ | ⟨p, hs, rfl⟩ | ⟨p, n, hs, rfl⟩ := hu
    · exact State.inFlightInvariants_of_seq_idle (hseq.trans hs)
    · exact State.inFlightInvariants_of_seq_idle (hseq.trans (s.retire_seq _))
    · refine State.inFlightInvariants_hostAccess hs _ (fun _ => hst (s.busy_of_seq_busy p _ hs)) fun p' n' hp => ?_
      cases hp
      exact hkey p _ hs
  · obtain ⟨-, rfl⟩ | ⟨p, hs, -⟩ | ⟨p, n, hs, -⟩ := hu
    · rw [hacc]
      exact u.inFlightInvariants_accept v (u.freeLatency v)
    · rw [hidle] at hs; cases hs
    · rw [hidle] at hs; cases hs

end Machine
end Sys2Proof
end

section
/-! The command words (30_encoding.md R70-R79): decode and encode are inverse, the verdict of every word from its two
fields, and how a word prints. -/

namespace Sys2Proof

/-! ### Decoding by the two fields (R70, R75) -/

theorem decode_encode (i : Instr) : decode (encode i) = .legal i := by
  cases i <;> rfl

/-- Only the word of a command decodes to it, and it does (R72, R75). -/
theorem decode_eq_legal_iff {w : Word} {i : Instr} : decode w = .legal i ↔ w = encode i :=
  ⟨eq_encode_of_decode_eq_legal, fun h => h ▸ decode_encode i⟩

theorem opcodeMap_eq_none_iff {opc : BitVec 4} : opcodeMap opc = none ↔ 8 ≤ opc.toNat := by
  revert opc
  decide

section
variable {w : Word}

theorem decode_of_rsvd_ne_zero (h : (fieldsOf w).rsvd ≠ 0#28) : decode w = .illegal .reservedBitsSet := by
  simp [decode, CmdFields.rsvdOk, h]

theorem decode_of_opcodeMap_eq_none (hr : (fieldsOf w).rsvd = 0#28) (ho : opcodeMap (fieldsOf w).opc = none) :
    decode w = .illegal .opcodeOutOfRange := by
  simp [decode, CmdFields.rsvdOk, hr, ho]

theorem decode_of_opcodeMap_eq_some {i : Instr} (hr : (fieldsOf w).rsvd = 0#28)
    (ho : opcodeMap (fieldsOf w).opc = some i) : decode w = .legal i := by
  simp [decode, CmdFields.rsvdOk, hr, ho]

/-! ### Printing (R79) -/

theorem printWord_of_decode_eq_legal {i : Instr} (h : decode w = .legal i) : printWord w = (i.mnemonic, true) := by
  simp only [printWord, h]

theorem printWord_of_ne_encode (h : ∀ i, w ≠ encode i) :
    printWord w = ("CMD 0x" ++ String.ofList (hexDigits w), false) := by
  unfold printWord
  cases hd : decode w with
  | legal i => exact absurd (decode_eq_legal_iff.1 hd) (h i)
  | illegal _ => rfl

end

/-- The sixteen hex digits in the letter case of log 13. -/
def hexAlphabet : List Char := ['0', '1', '2', '3', '4', '5', '6', '7', '8', '9', 'A', 'B', 'C', 'D', 'E', 'F']

theorem hexDigit_eq_getD (n : BitVec 4) : hexDigit n = hexAlphabet.getD n.toNat ' ' := by
  revert n
  decide

/-- Nibble k of a word is digit k of its value in base 16. -/
theorem toNat_nibble (w : Word) (k : Nat) : (w.extractLsb' (4 * k) 4).toNat = w.toNat / 16 ^ k % 16 := by
  rw [BitVec.extractLsb'_toNat, Nat.shiftRight_eq_div_pow, Nat.pow_mul]

theorem hexDigits_eq_map (w : Word) :
    hexDigits w = [7, 6, 5, 4, 3, 2, 1, 0].map fun k => hexAlphabet.getD (w.toNat / 16 ^ k % 16) ' ' := by
  have hnibbles : hexDigits w = [7, 6, 5, 4, 3, 2, 1, 0].map fun k => hexDigit (w.extractLsb' (4 * k) 4) := rfl
  simp only [hnibbles, hexDigit_eq_getD, toNat_nibble]

/-! ### The obligations -/

/-- Settles O2: the encoder's words are legal, and `eq_encode_of_decode_eq_legal` says no other word is. -/
theorem decodeIsLegalExactlyOnEncodedWords : Obligations.DecodeIsLegalExactlyOnEncodedWords :=
  fun _ _ => decode_eq_legal_iff

/-- Settles O3: the opcode map ends at 8, and the reserved bits are looked at before it. -/
theorem illegalWordsByTheirFields : Obligations.IllegalWordsByTheirFields := by
  intro w
  refine ⟨decode_of_rsvd_ne_zero, fun hr ho => decode_of_opcodeMap_eq_none hr (opcodeMap_eq_none_iff.2 ho),
    fun hr ho => ?_⟩
  have hsome : opcodeMap (fieldsOf w).opc ≠ none := fun h => absurd (opcodeMap_eq_none_iff.1 h) (Nat.not_le.2 ho)
  obtain ⟨i, hi⟩ := Option.ne_none_iff_exists'.1 hsome
  exact ⟨i, decode_of_opcodeMap_eq_some hr hi⟩

/-- Settles O1: each literal is the word the encoder gives its command. -/
theorem opcodeMapWordsDecode : Obligations.OpcodeMapWordsDecode :=
  ⟨decode_encode .nop, decode_encode .egcd, decode_encode .modinv, decode_encode .keyset, decode_encode .encIdx,
    decode_encode .decIdx, decode_encode .encChar, decode_encode .decChar⟩

/-- Settles O4: a legal word prints by its verdict, any other by the digits of its value. -/
theorem printedCommandWords : Obligations.PrintedCommandWords := by
  have hlegal : ∀ i, printWord (encode i) = (i.mnemonic, true) :=
    fun i => printWord_of_decode_eq_legal (decode_encode i)
  exact ⟨⟨hlegal .nop, hlegal .egcd, hlegal .modinv, hlegal .keyset, hlegal .encIdx, hlegal .decIdx, hlegal .encChar,
    hlegal .decChar⟩, hlegal, fun _ => printWord_of_ne_encode, hexDigits_eq_map⟩

end Sys2Proof
end

section
/-! Host programs (30_encoding.md R77, R78): what one line does, how many reads of STATUS POLL takes, and the whole life of
a command under EXEC. -/

namespace Sys2Proof.Machine

/-! ### One line (R77) -/

section
variable {s u : State} {p : Snapshot} {n : Nat}

/-- A line is the engine's part of one edge and then the line's access; the labels of the edges to come stay. -/
theorem runLine_eq (l : HostLine) (hu : enginePhase s = .next u) : runLine l s = some (hostAccess s l.action u) := by
  obtain ⟨u', hu', he, -, hl⟩ := enginePhase_labels s
  obtain rfl : u = u' := by simpa [hu] using hu'
  obtain ⟨-, -, -, -, hf⟩ := hostAccess_frame s l.action u
  have hstep : step (s.pushEdge ⟨false, l.action⟩) = .next (hostAccess s l.action u) := by
    rw [State.pushEdge, step_eq_of_enginePhase rfl (hl _), hostAccess_labels, ← he, ← hf]
  simp only [runLine, hstep]

theorem runLine_rd (r : Reg) (hu : enginePhase s = .next u) : runLine (.rd r) s = some u :=
  runLine_eq (.rd r) hu

/-- A command line in IDLE is the acceptance of the command's word (20_memory.md R57). -/
theorem runLine_cmd_idle (i : Instr) (h : s.seq = .idle) :
    runLine (.cmd i) s = some (s.accept (s.latch (encode i)) (s.freeLatency (encode i))).countAccepted := by
  rw [runLine_eq (.cmd i) (enginePhase_idle h), ← issue_idle h]
  rfl

/-! ### POLL (R78) -/

theorem State.rdata_status_bit0 (s : State) : (s.rdata Reg.status.index).getLsbD 0 = s.busy :=
  s.getLsbD_statusWord 0

theorem poll_idle (k : Nat) (h : s.seq = .idle) : poll (k + 1) s = some (s, s.statusWord) := by
  simp only [poll, runLine_rd .status (enginePhase_idle h), Option.bind_some, s.rdata_status_bit0,
    s.busy_of_seq_idle h, Bool.false_eq_true, if_false]
  rfl

/-- A read in BUSY uses one read up and goes on in the state the engine leaves. -/
theorem poll_busy (k : Nat) (h : s.seq = .busy p n) (hu : enginePhase s = .next u) : poll (k + 1) s = poll k u := by
  simp only [poll, runLine_rd .status hu, Option.bind_some, s.rdata_status_bit0, s.busy_of_seq_busy p n h, if_true]

/-- A completion replaces the sequencer, whatever it was. -/
theorem State.retire_setSeq (s : State) (q : Seq) (o : CmdOutcome) : (s.setSeq q).retire o = s.retire o := by
  cases o <;> rfl

/-- The reads up to the completing edge leave the command's completion in the state of now. -/
theorem poll_until_completion (k : Nat) (h : s.seq = .busy p n) :
    poll (k + (n + 1)) s = poll k (s.retire (wordRule p.cmd p)) := by
  induction n generalizing s with
  | zero => exact poll_busy k h (enginePhase_completing h)
  | succ n ih =>
    calc poll (k + (n + 1) + 1) s
        = poll (k + (n + 1)) (s.setSeq (.busy p n)) := poll_busy _ h (enginePhase_waiting h)
      _ = poll k ((s.setSeq (.busy p n)).retire (wordRule p.cmd p)) := ih rfl
      _ = poll k (s.retire (wordRule p.cmd p)) := by rw [State.retire_setSeq]

/-- One read after the completing edge ends POLL. -/
theorem poll_ends_in_completion (h : s.seq = .busy p n) :
    poll (n + 2) s = some (s.retire (wordRule p.cmd p), (s.retire (wordRule p.cmd p)).statusWord) := by
  have hreads : n + 2 = 1 + (n + 1) := by omega
  rw [hreads, poll_until_completion 1 h, poll_idle 0 (s.retire_seq _)]

end

/-! ### EXEC (R78) -/

theorem wordRule_encode (i : Instr) : wordRule (encode i) = ruleOf i := by
  simp only [wordRule, decode_encode]

/-- The count of accepted commands (log 1) does not enter a completion, and neither do the edges left at acceptance. -/
theorem State.retire_accept_countAccepted (s : State) (p : Snapshot) (n : Nat) (o : CmdOutcome) :
    (s.accept p n).countAccepted.retire o = { (s.accept p 0).retire o with accepted := s.accepted + 1 } := by
  cases o <;> rfl

/-- EXEC from IDLE, with two reads more than the free latency, ends in the completion on the snapshot of before. -/
theorem execPoll_idle {s : State} (i : Instr) (h : s.seq = .idle) :
    execPoll (s.freeLatency (encode i) + 2) i s =
      let t := (s.accept (s.latch (encode i)) (s.freeLatency (encode i))).countAccepted.retire
        (ruleOf i (s.latch (encode i)))
      some (t, t.statusWord) := by
  rw [execPoll, runLine_cmd_idle i h, Option.bind_some, poll_ends_in_completion rfl, State.latch, wordRule_encode]

/-- Settles O53, from the completion that the reads of POLL arrive at. -/
theorem pollEnds : Obligations.PollEnds := by
  refine fun s => ⟨poll_idle 0, fun p n h => ⟨?_, _, poll_ends_in_completion h, s.retire_seq _, ?_, ?_⟩⟩
  · rw [← Nat.zero_add (n + 1), poll_until_completion 0 h]
    rfl
  · exact (State.getLsbD_statusWord _ 0).trans (State.busy_of_seq_idle _ (s.retire_seq _))
  · exact (State.getLsbD_statusWord _ 1).trans (s.retire_done _)

/-- Settles O54: the acceptance, then POLL over the free latency, against the completion with no edge left to wait. -/
theorem execRunsACommandEndToEnd : Obligations.ExecRunsACommandEndToEnd := by
  intro s i h
  have hexec : exec i (s.accept (s.latch (encode i)) 0) =
      .next ((s.accept (s.latch (encode i)) 0).retire (ruleOf i (s.latch (encode i)))) := by
    rw [exec_eq_complete, complete_busy _ _ _ _ rfl]
  exact ⟨_, _, _, hexec, State.retire_accept_countAccepted _ _ _ _, execPoll_idle i h, State.retire_seq _ _,
    State.retire_done _ _, State.retire_drop _ _⟩

end Sys2Proof.Machine
end

section
/-! The function EGCD on the integers (40_number_theory.md R101-R104): its recursion, the laws of g, and the bounds on
x and y that keep all three results within 32 bits. -/

namespace Sys2Proof.Machine

/-! ### The recursion (R101) -/

theorem egcd_zero (b : Int) : egcd 0 b = ⟨b, 0, 1⟩ := rfl

theorem egcd_of_ne_zero {a : Int} (b : Int) (ha : a ≠ 0) :
    egcd a b =
      ⟨(egcd (fmod b a) a).g, (egcd (fmod b a) a).y - fdiv b a * (egcd (fmod b a) a).x, (egcd (fmod b a) a).x⟩ := by
  have hlt := fmod_natAbs_lt b a ha
  have hbound : egcdFuel a.natAbs (fmod b a) a = egcd (fmod b a) a :=
    egcdFuel_bound_irrelevant _ _ _ _ hlt (Nat.lt_succ_self _)
  rw [egcd, egcdFuel, if_neg ha, hbound]

/-- What holds of every pair (0, b), and of (a, b) when it holds of (fmod(b, a), a), holds of all pairs (R103). -/
theorem egcd_induction {P : Int → Int → Prop} (zero : ∀ b, P 0 b)
    (descend : ∀ a b, a ≠ 0 → P (fmod b a) a → P a b) (a b : Int) : P a b :=
  if ha : a = 0 then ha ▸ zero b else descend a b ha (egcd_induction zero descend (fmod b a) a)
termination_by a.natAbs
decreasing_by exact fmod_natAbs_lt b a ha

theorem fmod_eq_zero_iff_dvd {n d : Int} : fmod n d = 0 ↔ d ∣ n := by
  rw [fmod_eq_int_fmod]
  exact ⟨Int.dvd_of_fmod_eq_zero, Int.fmod_eq_zero_of_dvd⟩

/-- One descent ends the recursion when a divides b. -/
theorem egcd_of_dvd {a b : Int} (ha : a ≠ 0) (hdvd : a ∣ b) : egcd a b = ⟨a, 1, 0⟩ := by
  rw [egcd_of_ne_zero b ha, fmod_eq_zero_iff_dvd.2 hdvd, egcd_zero, Int.mul_zero, Int.sub_zero]

/-! ### The laws of g (R104) -/

theorem gcd_fmod_left (b a : Int) : Int.gcd (fmod b a) a = Int.gcd a b := by
  rw [fmod, Int.gcd_sub_mul_left_left, Int.gcd_comm]

theorem egcd_g_natAbs (a b : Int) : (egcd a b).g.natAbs = Int.gcd a b := by
  induction a, b using egcd_induction with
  | zero b => rw [egcd_zero, Int.gcd_zero_left]
  | descend a b ha ih => rw [egcd_of_ne_zero b ha, ih, gcd_fmod_left]

theorem sign_fmod {n d : Int} (hd : d ≠ 0) (hr : fmod n d ≠ 0) : (fmod n d).sign = d.sign := by
  rcases lt_or_gt_of_ne hd with hneg | hpos
  · have hle := fmod_nonpos_of_neg n hneg
    rw [Int.sign_eq_neg_one_of_neg hneg, Int.sign_eq_neg_one_of_neg (by omega)]
  · have hge := fmod_nonneg_of_pos n hpos
    rw [Int.sign_eq_one_of_pos hpos, Int.sign_eq_one_of_pos (by omega)]

/-- Every later first argument is 0 or has the sign of a, and g is the last one that is not 0. -/
theorem egcd_g_sign {a : Int} (b : Int) : a ≠ 0 → (egcd a b).g.sign = a.sign := by
  induction a, b using egcd_induction with
  | zero b => exact fun h => absurd rfl h
  | descend a b ha ih =>
    intro _
    by_cases hr : fmod b a = 0
    · rw [egcd_of_dvd ha (fmod_eq_zero_iff_dvd.1 hr)]
    · rw [egcd_of_ne_zero b ha, ih hr, sign_fmod ha hr]

theorem egcd_g_ne_zero {a : Int} (b : Int) (ha : a ≠ 0) : (egcd a b).g ≠ 0 := by
  rw [← Int.natAbs_ne_zero, egcd_g_natAbs]
  exact Int.gcd_ne_zero_left ha

theorem egcd_g_pos_iff {a : Int} (b : Int) (ha : a ≠ 0) : 0 < (egcd a b).g ↔ 0 < a := by
  rw [← Int.sign_eq_one_iff_pos, egcd_g_sign b ha, Int.sign_eq_one_iff_pos]

theorem egcd_g_of_pos {a : Int} (b : Int) (ha : 0 < a) : (egcd a b).g = Int.gcd a b := by
  have hpos := (egcd_g_pos_iff b ha.ne').2 ha
  rw [← egcd_g_natAbs, Int.natAbs_of_nonneg hpos.le]

/-- g is 1 for coprime operands with a > 0, and for (0, 1). -/
theorem egcd_g_eq_one_iff {a b : Int} : (egcd a b).g = 1 ↔ (0 < a ∧ Int.gcd a b = 1) ∨ (a = 0 ∧ b = 1) := by
  obtain rfl | ha := eq_or_ne a 0
  · simp [egcd_zero]
  · have hpos := egcd_g_pos_iff b ha
    have habs := egcd_g_natAbs a b
    omega

/-! ### The size of the results (R102) -/

theorem egcd_g_natAbs_le {a : Int} (b : Int) (ha : a ≠ 0) : (egcd a b).g.natAbs ≤ a.natAbs := by
  rw [egcd_g_natAbs]
  exact Nat.le_of_dvd (Int.natAbs_pos.2 ha) (Int.gcd_dvd_natAbs_left a b)

theorem egcd_g_natAbs_lt {a b : Int} (ha : a ≠ 0) (hdvd : ¬ a ∣ b) : (egcd a b).g.natAbs < a.natAbs := by
  refine lt_of_le_of_ne (egcd_g_natAbs_le b ha) fun heq => hdvd ?_
  rw [← Int.natAbs_dvd, ← heq, egcd_g_natAbs]
  exact Int.gcd_dvd_right a b

/-- In a combination of a and b to a value below |a|, a coefficient of b below |a| bounds the coefficient of a. -/
theorem natAbs_lt_max_of_combination {a b x y g : Int} (h : a * x + b * y = g) (hy : y.natAbs < a.natAbs)
    (hg : g.natAbs < a.natAbs) : x.natAbs < max a.natAbs b.natAbs := by
  by_contra hx
  obtain ⟨hax, hbx⟩ := max_le_iff.1 (Nat.not_lt.1 hx)
  have hle : a.natAbs * x.natAbs ≤ g.natAbs + b.natAbs * y.natAbs := by
    rw [← Int.natAbs_mul, ← Int.natAbs_mul, eq_sub_of_add_eq h]
    exact Int.natAbs_sub_le _ _
  have hlt : g.natAbs + b.natAbs * y.natAbs < a.natAbs * x.natAbs :=
    calc g.natAbs + b.natAbs * y.natAbs
        < x.natAbs + x.natAbs * y.natAbs := Nat.add_lt_add_of_lt_of_le (hg.trans_le hax) (Nat.mul_le_mul_right _ hbx)
      _ = (y.natAbs + 1) * x.natAbs := by ring
      _ ≤ a.natAbs * x.natAbs := Nat.mul_le_mul_right _ hy
  exact Nat.not_lt.2 hle hlt

/-- The bound on y passes down the recursion: y of a pair is x of the next. -/
theorem egcd_y_natAbs_lt {a : Int} (b : Int) : a ≠ 0 → (egcd a b).y.natAbs < a.natAbs := by
  induction a, b using egcd_induction with
  | zero b => exact fun h => absurd rfl h
  | descend a b ha ih =>
    intro _
    have hlt := fmod_natAbs_lt b a ha
    rw [egcd_of_ne_zero b ha]
    by_cases hr : fmod b a = 0
    · rw [hr, egcd_zero]
      exact Int.natAbs_pos.2 ha
    by_cases hdvd : fmod b a ∣ a
    · rw [egcd_of_dvd hr hdvd]
      exact lt_of_le_of_lt (Int.natAbs_pos.2 hr) hlt
    · have hx := natAbs_lt_max_of_combination (egcd_combination (fmod b a) a) (ih hr) (egcd_g_natAbs_lt hr hdvd)
      rwa [max_eq_right hlt.le] at hx

theorem egcd_x_natAbs_lt {a b : Int} (ha : a ≠ 0) (hdvd : ¬ a ∣ b) :
    (egcd a b).x.natAbs < max a.natAbs b.natAbs :=
  natAbs_lt_max_of_combination (egcd_combination a b) (egcd_y_natAbs_lt b ha) (egcd_g_natAbs_lt ha hdvd)

theorem fits32_of_natAbs_lt_max {a b n : Int} (ha : fits32 a = true) (hb : fits32 b = true)
    (h : n.natAbs < max a.natAbs b.natAbs) : fits32 n = true := by
  simp only [fits32_iff] at *
  omega

/-- No result of EGCD outgrows operands that fit. -/
theorem egcd_fits32 {a b : Int} (ha : fits32 a = true) (hb : fits32 b = true) :
    fits32 (egcd a b).g = true ∧ fits32 (egcd a b).x = true ∧ fits32 (egcd a b).y = true := by
  obtain rfl | ha0 := eq_or_ne a 0
  · exact ⟨hb, rfl, rfl⟩
  refine ⟨?_, ?_, fits32_of_natAbs_lt_max ha hb (lt_max_of_lt_left (egcd_y_natAbs_lt b ha0))⟩
  · have hpos := egcd_g_pos_iff b ha0
    have hle := egcd_g_natAbs_le b ha0
    simp only [fits32_iff] at *
    omega
  · by_cases hdvd : a ∣ b
    · rw [egcd_of_dvd ha0 hdvd]
      rfl
    · exact fits32_of_natAbs_lt_max ha hb (egcd_x_natAbs_lt ha0 hdvd)

/-! ### The obligations -/

/-- Settles O25: the depth bound of the recursion is never used up. -/
theorem egcdRecursion : Obligations.EgcdRecursion :=
  fun _ b => ⟨fun ha => ha ▸ egcd_zero b, egcd_of_ne_zero b⟩

/-- Settles O26, one lemma per law. -/
theorem egcdLaws : Obligations.EgcdLaws := by
  refine fun a b => ⟨egcd_combination a b, egcd_g_natAbs a b, fun ha => ha ▸ egcd_zero b,
    fun ha => ⟨egcd_g_ne_zero b ha, egcd_g_sign b ha⟩, ?_⟩
  rintro (ha | ⟨rfl, hb⟩)
  · exact egcd_g_of_pos b ha
  · rw [egcd_zero, Int.gcd_zero_left, Int.natAbs_of_nonneg hb]

end Sys2Proof.Machine
end

section
/-! The commands EGCD and MODINV (40_number_theory.md R100-R107): their completions, that EGCD never overflows at
W = 32, and what a MODINV success is and when it comes. -/

namespace Sys2Proof.Machine

/-! ### Completions as record updates (R151) -/

theorem exec_busy (i : Instr) {s : State} {p : Snapshot} {n : Nat} (h : s.seq = .busy p n) :
    exec i s = .next (s.retire (ruleOf i p)) := by
  rw [exec_eq_complete, complete_busy _ s p n h]

theorem State.retire_err (s : State) (c : ErrCode) :
    s.retire (.err c) = { s with errcode := c, done := true, seq := .idle } := rfl

theorem State.retire_results (s : State) (g x y : Word) :
    s.retire (.ok (.results g x y)) =
      { s with res0 := g, res1 := x, res2 := y, errcode := .none, done := true, seq := .idle } := rfl

theorem State.retire_res0Only (s : State) (w : Word) :
    s.retire (.ok (.res0Only w)) = { s with res0 := w, errcode := .none, done := true, seq := .idle } := rfl

/-! ### Words that read back (R13) -/

theorem fits32_sext32 (w : Word) : fits32 (sext32 w) = true :=
  (fits32_iff _).2 ⟨BitVec.le_toInt w, BitVec.toInt_le⟩

theorem sext32_word {n : Int} (h : fits32 n = true) : sext32 (word n) = n := by
  obtain ⟨hlo, hhi⟩ := (fits32_iff n).1 h
  exact BitVec.toInt_ofInt_eq_self (by decide) hlo (by omega)

/-- A remainder fits where its divisor does. -/
theorem fits32_fmod (n : Int) {d : Int} (hd : d ≠ 0) (h : fits32 d = true) : fits32 (fmod n d) = true := by
  have hlt := fmod_natAbs_lt n d hd
  exact fits32_of_natAbs_lt_max h h (lt_max_of_lt_left hlt)

/-! ### EGCD (R100, R102) -/

theorem egcdRule_eq_ite (p : Snapshot) :
    egcdRule p =
      if fits32 (egcd (sext32 p.a) (sext32 p.b)).g = true ∧ fits32 (egcd (sext32 p.a) (sext32 p.b)).x = true ∧
        fits32 (egcd (sext32 p.a) (sext32 p.b)).y = true
      then .ok (.results (word (egcd (sext32 p.a) (sext32 p.b)).g) (word (egcd (sext32 p.a) (sext32 p.b)).x)
        (word (egcd (sext32 p.a) (sext32 p.b)).y))
      else .err .overflow := by
  simp only [egcdRule, Bool.and_eq_true, and_assoc]

/-- Settles O27: the rule's two outcomes, each with its retirement. -/
theorem egcdCompletion : Obligations.EgcdCompletion := by
  intro s p n h
  rw [exec_busy .egcd h, ruleOf, egcdRule_eq_ite]
  split_ifs
  · rw [State.retire_results]
  · rw [State.retire_err]

/-- Settles O28: by the bounds on the recursion no result outgrows the operands. -/
theorem egcdNeverOverflows : Obligations.EgcdNeverOverflows := by
  intro s p n h
  obtain ⟨hg, hx, hy⟩ := egcd_fits32 (fits32_sext32 p.a) (fits32_sext32 p.b)
  refine ⟨_, (egcdCompletion s p n h).trans ?_, rfl, sext32_word hg, sext32_word hx, sext32_word hy⟩
  rw [if_pos ⟨hg, hx, hy⟩]

/-! ### The outcome of MODINV (R105) -/

section
variable {p : Snapshot}

theorem modinvRule_of_g_ne_one (hg : (egcd (sext32 p.a) (sext32 p.b)).g ≠ 1) : modinvRule p = .err .invalidKey := by
  rw [modinvRule, if_pos hg]

theorem modinvRule_of_modulus_zero (hg : (egcd (sext32 p.a) (sext32 p.b)).g = 1) (hm : sext32 p.b = 0) :
    modinvRule p = .err .zeroModulus := by
  rw [modinvRule, if_neg (not_not.2 hg), if_pos hm]

theorem modinvRule_of_invertible (hg : (egcd (sext32 p.a) (sext32 p.b)).g = 1) (hm : sext32 p.b ≠ 0) :
    modinvRule p = .ok (.res0Only (word (fmod (egcd (sext32 p.a) (sext32 p.b)).x (sext32 p.b)))) := by
  rw [modinvRule, if_neg (not_not.2 hg), if_neg hm]

/-- The error code of MODINV, by the order of its checks. -/
theorem modinvRule_code (p : Snapshot) :
    (modinvRule p).code =
      if (egcd (sext32 p.a) (sext32 p.b)).g ≠ 1 then .invalidKey
      else if sext32 p.b = 0 then .zeroModulus else .none := by
  split_ifs with hg hm
  · rw [modinvRule_of_g_ne_one hg, CmdOutcome.code]
  · rw [modinvRule_of_modulus_zero (not_not.1 hg) hm, CmdOutcome.code]
  · rw [modinvRule_of_invertible (not_not.1 hg) hm, CmdOutcome.code]

theorem modinvRule_code_eq_none_iff :
    (modinvRule p).code = .none ↔ (egcd (sext32 p.a) (sext32 p.b)).g = 1 ∧ sext32 p.b ≠ 0 := by
  rw [modinvRule_code]
  split_ifs with hg hm
  · exact iff_of_false nofun fun h => hg h.1
  · exact iff_of_false nofun fun h => h.2 hm
  · exact iff_of_true rfl ⟨not_not.1 hg, hm⟩

theorem modinvRule_code_eq_zeroModulus_iff :
    (modinvRule p).code = .zeroModulus ↔ (egcd (sext32 p.a) (sext32 p.b)).g = 1 ∧ sext32 p.b = 0 := by
  rw [modinvRule_code]
  split_ifs with hg hm
  · exact iff_of_false nofun fun h => hg h.1
  · exact iff_of_true rfl ⟨not_not.1 hg, hm⟩
  · exact iff_of_false nofun fun h => hm h.2

theorem modinvRule_code_cases (p : Snapshot) :
    (modinvRule p).code = .zeroModulus ∨ (modinvRule p).code = .none ∨ (modinvRule p).code = .invalidKey := by
  rw [modinvRule_code]
  split_ifs
  · exact .inr (.inr rfl)
  · exact .inl rfl
  · exact .inr (.inl rfl)

theorem retire_modinvRule_res0 (s : State) (hg : (egcd (sext32 p.a) (sext32 p.b)).g = 1) (hm : sext32 p.b ≠ 0) :
    (s.retire (modinvRule p)).res0 = word (fmod (egcd (sext32 p.a) (sext32 p.b)).x (sext32 p.b)) := by
  rw [modinvRule_of_invertible hg hm, State.retire_res0Only]

end

/-- Settles O29, from the rule's three outcomes. -/
theorem modinvCompletion : Obligations.ModinvCompletion := by
  intro s p n h
  rw [exec_busy .modinv h, ruleOf]
  refine ⟨fun hg => ?_, fun hg hm => ?_, fun hg hm => ?_⟩
  · rw [modinvRule_of_g_ne_one hg, State.retire_err]
  · rw [modinvRule_of_modulus_zero hg hm, State.retire_err]
  · rw [modinvRule_of_invertible hg hm, State.retire_res0Only]

/-! ### The value of a success (R106) -/

section
variable {a m : Int}

theorem dvd_mul_egcd_x_sub_one (hg : (egcd a m).g = 1) : m ∣ a * (egcd a m).x - 1 := by
  have hcomb : a * (egcd a m).x + m * (egcd a m).y = 1 := (egcd_combination a m).trans hg
  exact ⟨-(egcd a m).y, by linear_combination hcomb⟩

/-- Reducing the coefficient modulo m keeps it an inverse of a. -/
theorem dvd_mul_fmod_egcd_x_sub_one (hg : (egcd a m).g = 1) : m ∣ a * fmod (egcd a m).x m - 1 := by
  obtain ⟨k, hk⟩ := dvd_mul_egcd_x_sub_one hg
  exact ⟨k - a * fdiv (egcd a m).x m, by rw [fmod]; linear_combination hk⟩

/-- Two inverses of a modulo m are congruent: r ≡ r (a r') = r' (a r) ≡ r'. -/
theorem dvd_sub_of_inverses {r r' : Int} (h : m ∣ a * r - 1) (h' : m ∣ a * r' - 1) : m ∣ r' - r := by
  have hdiff : r' - r = r' * (1 - a * r) + r * (a * r' - 1) := by ring
  rw [hdiff]
  exact dvd_add ((dvd_sub_comm.1 h).mul_left r') (h'.mul_left r)

/-- An inverse of a in [0, m) is the one MODINV computes. -/
theorem eq_fmod_egcd_x {r : Int} (hg : (egcd a m).g = 1) (h0 : 0 ≤ r) (hlt : r < m) (hinv : m ∣ a * r - 1) :
    r = fmod (egcd a m).x m :=
  eq_fmod_of_dvd_sub h0 hlt (dvd_sub_of_inverses hinv (dvd_mul_egcd_x_sub_one hg))

end

/-- Settles O30: the word of RES0 reads back as the reduced coefficient. -/
theorem modinvSuccessIsTheInverse : Obligations.ModinvSuccessIsTheInverse := by
  intro s t p n h ht hcode
  obtain rfl : s.retire (modinvRule p) = t := by simpa [exec_busy .modinv h, ruleOf] using ht
  rw [State.retire_errcode] at hcode
  obtain ⟨hg, hm⟩ := modinvRule_code_eq_none_iff.1 hcode
  rw [retire_modinvRule_res0 s hg hm, sext32_word (fits32_fmod _ hm (fits32_sext32 p.b))]
  exact ⟨dvd_mul_fmod_egcd_x_sub_one hg,
    fun hpos => ⟨fmod_nonneg_of_pos _ hpos, fmod_lt_of_pos _ hpos, fun _ => eq_fmod_egcd_x hg⟩,
    fun hneg => ⟨lt_fmod_of_neg _ hneg, fmod_nonpos_of_neg _ hneg⟩⟩

/-! ### Which operands give which outcome (R107) -/

/-- The residues that are invertible modulo 26, each with its inverse. -/
def inversesMod26 : List (Int × Int) :=
  [(1, 1), (3, 9), (5, 21), (7, 15), (9, 3), (11, 19), (15, 7), (17, 23), (19, 11), (21, 5), (23, 17), (25, 25)]

theorem inversesMod26_invertible :
    ∀ e ∈ inversesMod26, 0 < e.1 ∧ Int.gcd e.1 26 = 1 ∧ 0 ≤ e.2 ∧ e.2 < 26 ∧ 26 ∣ e.1 * e.2 - 1 := by
  decide

/-- The residues of the table are those of [0, 25] that are coprime to 26. -/
theorem mem_inversesMod26_iff {a : Int} (h0 : 0 ≤ a) (h25 : a ≤ 25) :
    a ∈ inversesMod26.map Prod.fst ↔ 0 < a ∧ Int.gcd a 26 = 1 := by
  have hall : ∀ b ∈ Finset.Icc (0 : Int) 25, b ∈ inversesMod26.map Prod.fst ↔ 0 < b ∧ Int.gcd b 26 = 1 := by decide
  exact hall a (Finset.mem_Icc.2 ⟨h0, h25⟩)

theorem egcd_g_twentySix_eq_one_iff {a : Int} : (egcd a 26).g = 1 ↔ 0 < a ∧ Int.gcd a 26 = 1 := by
  simp [egcd_g_eq_one_iff]

/-- With a table's residue and modulus 26, MODINV computes the table's inverse. -/
theorem fmod_egcd_x_of_mem_inversesMod26 {e : Int × Int} (he : e ∈ inversesMod26) :
    (egcd e.1 26).g = 1 ∧ fmod (egcd e.1 26).x 26 = e.2 := by
  obtain ⟨hpos, hgcd, h0, hlt, hinv⟩ := inversesMod26_invertible e he
  have hg := egcd_g_twentySix_eq_one_iff.2 ⟨hpos, hgcd⟩
  exact ⟨hg, (eq_fmod_egcd_x hg h0 hlt hinv).symm⟩

/-- Only (1, 0) passes the first check of MODINV and fails the second. -/
theorem egcd_g_eq_one_and_eq_zero_iff {a m : Int} : (egcd a m).g = 1 ∧ m = 0 ↔ a = 1 ∧ m = 0 := by
  refine and_congr_left fun hm => ?_
  rw [egcd_g_eq_one_iff, hm, Int.gcd_zero_right]
  omega

theorem egcd_g_eq_one_and_ne_zero_iff {a m : Int} :
    (egcd a m).g = 1 ∧ m ≠ 0 ↔ (0 < a ∧ Int.gcd a m = 1 ∧ m ≠ 0) ∨ (a = 0 ∧ m = 1) := by
  rw [egcd_g_eq_one_iff]
  omega

/-- Settles O31: the checks by sign and gcd, and the table by the uniqueness of the inverse. -/
theorem modinvOutcomeLaw : Obligations.ModinvOutcomeLaw := by
  intro s p n h
  refine ⟨_, exec_busy .modinv h, ?_⟩
  rw [State.retire_errcode, ruleOf]
  refine ⟨modinvRule_code_eq_zeroModulus_iff.trans egcd_g_eq_one_and_eq_zero_iff,
    modinvRule_code_eq_none_iff.trans egcd_g_eq_one_and_ne_zero_iff, modinvRule_code_cases p, fun hm h0 h25 => ?_,
    fun e he hm ha => ?_⟩
  · calc (modinvRule p).code = .none
        ↔ (egcd (sext32 p.a) 26).g = 1 := by simp [modinvRule_code_eq_none_iff, hm]
      _ ↔ sext32 p.a ∈ inversesMod26.map Prod.fst :=
          egcd_g_twentySix_eq_one_iff.trans (mem_inversesMod26_iff h0 h25).symm
  · obtain ⟨hg, hx⟩ := fmod_egcd_x_of_mem_inversesMod26 he
    rw [retire_modinvRule_res0 s (by rwa [ha, hm]) (by rw [hm]; decide), ha, hm, hx]

end Sys2Proof.Machine
end

section
/-! The arithmetic of the affine datapath (41_affine_datapath.md R120-R132): the index maps modulo 26 and that they undo
each other, the letter classes, and what a character map does to a code. -/

namespace Sys2Proof.Machine

/-! ### Words of small integers (R13) -/

theorem zext32_word {n : Int} (h0 : 0 ≤ n) (hlt : n < 2 ^ 32) : zext32 (word n) = n := by
  rw [zext32, toNat_word, Int.emod_eq_of_lt h0 hlt]

theorem word_zext32 (w : Word) : word (zext32 w) = w := by
  rw [word, zext32, BitVec.ofInt_natCast, BitVec.ofNat_toNat, BitVec.setWidth_eq]

theorem word_sext32 (w : Word) : word (sext32 w) = w := BitVec.ofInt_toInt

/-! ### Index maps (R123-R126) -/

/-- A map whose every value is a letter index, in [0, 25]. -/
def IsIndexMap (f : Int → Int) : Prop := ∀ q, 0 ≤ f q ∧ f q ≤ 25

theorem fmod_modulus_range (n : Int) : 0 ≤ fmod n modulus ∧ fmod n modulus ≤ 25 :=
  ⟨fmod_nonneg_of_pos n (by decide), Int.le_of_lt_add_one (fmod_lt_of_pos n (by decide))⟩

theorem toNat_word_fmod_modulus_le (n : Int) : (word (fmod n modulus)).toNat ≤ 25 := by
  have hword := toNat_word (fmod n modulus)
  have hrange := fmod_modulus_range n
  omega

theorem encIndex_isIndexMap (p : Snapshot) : IsIndexMap (encIndex p) := fun _ => fmod_modulus_range _

theorem decIndex_isIndexMap (p : Snapshot) : IsIndexMap (decIndex p) := fun _ => fmod_modulus_range _

theorem fmod_modulus_congr {m n : Int} (h : m ≡ n [ZMOD 26]) : fmod m modulus = fmod n modulus := by
  rw [fmod_modulus, fmod_modulus]
  exact h

theorem fmod_modulus_modEq (n : Int) : fmod n modulus ≡ n [ZMOD 26] := by
  rw [fmod_modulus]
  exact Int.mod_modEq n 26

theorem fmod_modulus_of_index {n : Int} (h0 : 0 ≤ n) (h25 : n ≤ 25) : fmod n modulus = n := by
  rw [fmod_modulus]
  omega

/-- The encrypting map sees its index and both halves of the key modulo 26 only (R124). -/
theorem encIndex_congr {p p' : Snapshot} {q q' : Int} (ha : sext32 p.ka ≡ sext32 p'.ka [ZMOD 26])
    (hb : sext32 p.kb ≡ sext32 p'.kb [ZMOD 26]) (hq : q ≡ q' [ZMOD 26]) : encIndex p q = encIndex p' q' :=
  fmod_modulus_congr ((ha.mul hq).add hb)

theorem decIndex_congr_kb {p p' : Snapshot} (q : Int) (hi : p.ki = p'.ki)
    (hb : sext32 p.kb ≡ sext32 p'.kb [ZMOD 26]) : decIndex p q = decIndex p' q := by
  rw [decIndex, decIndex, hi]
  exact fmod_modulus_congr ((hb.sub_left q).mul_left _)

/-- Under a valid key the inverse map undoes the map modulo 26: ki ((ka q + kb) - kb) = (ka ki) q ≡ q (R126). -/
theorem decIndex_encIndex {p : Snapshot} (hk : KeyOk p.ka p.ki p.kv) (hv : p.kv = true) (q : Int) :
    decIndex p (encIndex p q) = fmod q modulus := by
  obtain ⟨-, -, hinv⟩ := hk.1 hv
  have hone : sext32 p.ka * zext32 p.ki ≡ 1 [ZMOD 26] := hinv ▸ (fmod_modulus_modEq _).symm
  refine fmod_modulus_congr ?_
  calc zext32 p.ki * (encIndex p q - sext32 p.kb)
      ≡ zext32 p.ki * (sext32 p.ka * q + sext32 p.kb - sext32 p.kb) [ZMOD 26] :=
        ((fmod_modulus_modEq _).sub_right _).mul_left _
    _ = sext32 p.ka * zext32 p.ki * q := by ring
    _ ≡ 1 * q [ZMOD 26] := hone.mul_right q
    _ = q := one_mul q

/-! ### Letter classes (R128) -/

theorem charClass_eq_some_iff {c base : Int} :
    charClass c = some base ↔ (base = 65 ∨ base = 97) ∧ base ≤ c ∧ c ≤ base + 25 := by
  unfold charClass
  split_ifs
  · rw [Option.some.injEq]; omega
  · rw [Option.some.injEq]; omega
  · exact iff_of_false nofun (by omega)

section
variable {w : Word}

theorem charClass_upper_iff : charClass (zext32 w) = some 65 ↔ 0x41 ≤ w.toNat ∧ w.toNat ≤ 0x5A := by
  rw [charClass_eq_some_iff, zext32]
  omega

theorem charClass_lower_iff : charClass (zext32 w) = some 97 ↔ 0x61 ≤ w.toNat ∧ w.toNat ≤ 0x7A := by
  rw [charClass_eq_some_iff, zext32]
  omega

theorem charClass_eq_none (hu : ¬(0x41 ≤ w.toNat ∧ w.toNat ≤ 0x5A)) (hl : ¬(0x61 ≤ w.toNat ∧ w.toNat ≤ 0x7A)) :
    charClass (zext32 w) = none := by
  refine Option.eq_none_iff_forall_ne_some.2 fun base hb => ?_
  obtain ⟨rfl | rfl, -⟩ := charClass_eq_some_iff.1 hb
  · exact hu (charClass_upper_iff.1 hb)
  · exact hl (charClass_lower_iff.1 hb)

/-! ### Character maps (R127, R129) -/

variable {f g : Int → Int} {base : Int}

theorem mapChar_of_letter (h : charClass (zext32 w) = some base) :
    mapChar f w = word (f (zext32 w - base) + base) := by
  rw [mapChar, h]

theorem mapChar_of_nonLetter (h : charClass (zext32 w) = none) : mapChar f w = w := by
  rw [mapChar, h]

theorem zext32_mapChar (hf : IsIndexMap f) (h : charClass (zext32 w) = some base) :
    zext32 (mapChar f w) = f (zext32 w - base) + base := by
  obtain ⟨hbase, -⟩ := charClass_eq_some_iff.1 h
  obtain ⟨h0, h25⟩ := hf (zext32 w - base)
  rw [mapChar_of_letter h, zext32_word] <;> omega

/-- A letter stays within its class, and a non-letter stays one (R132). -/
theorem charClass_mapChar (hf : IsIndexMap f) (w : Word) : charClass (zext32 (mapChar f w)) = charClass (zext32 w) := by
  cases h : charClass (zext32 w) with
  | none => rw [mapChar_of_nonLetter h, h]
  | some base =>
    obtain ⟨hbase, -⟩ := charClass_eq_some_iff.1 h
    obtain ⟨h0, h25⟩ := hf (zext32 w - base)
    rw [zext32_mapChar hf h, charClass_eq_some_iff]
    omega

/-- An index map that undoes another on [0, 25] undoes it on every code (R130). -/
theorem mapChar_mapChar (hf : IsIndexMap f) (hgf : ∀ q, 0 ≤ q → q ≤ 25 → g (f q) = q) (w : Word) :
    mapChar g (mapChar f w) = w := by
  cases h : charClass (zext32 w) with
  | none => rw [mapChar_of_nonLetter h, mapChar_of_nonLetter h]
  | some base =>
    obtain ⟨-, hlo, hhi⟩ := charClass_eq_some_iff.1 h
    rw [mapChar_of_letter ((charClass_mapChar hf w).trans h), zext32_mapChar hf h, add_sub_cancel_right,
      hgf _ (by omega) (by omega), sub_add_cancel, word_zext32]

end

/-! ### The key KEYSET makes (R121) -/

theorem keyFrom_of_g_eq_one {a : Word} (b : Word) (hg : (egcd (sext32 a) modulus).g = 1) :
    keyFrom a b = ⟨a, b, word (fmod (egcd (sext32 a) modulus).x modulus), true⟩ := by
  rw [keyFrom, if_pos hg]

theorem keyFrom_of_g_ne_one {a : Word} (b : Word) (hg : (egcd (sext32 a) modulus).g ≠ 1) :
    keyFrom a b = ⟨a, b, 0#32, false⟩ := by
  rw [keyFrom, if_neg hg]

theorem keyFrom_keyv_eq_true_iff {a b : Word} :
    (keyFrom a b).keyv = true ↔ 0 < sext32 a ∧ Int.gcd (sext32 a) 26 = 1 := by
  rw [← egcd_g_twentySix_eq_one_iff]
  by_cases hg : (egcd (sext32 a) 26).g = 1
  · rw [keyFrom_of_g_eq_one b hg]; exact iff_of_true rfl hg
  · rw [keyFrom_of_g_ne_one b hg]; exact iff_of_false nofun hg

end Sys2Proof.Machine
end

section
/-! The commands of the affine datapath (41_affine_datapath.md R120-R132): their completions, the laws between KEYSET,
MODINV, the encrypting and the decrypting commands, and that only KEYSET changes the key. -/

namespace Sys2Proof.Machine

/-! ### Completions by the rule's outcome (R151) -/

section
variable {s : State} {p p' : Snapshot} {n : Nat} {i : Instr} {w : Word}

theorem State.retire_keyOnly (s : State) (k : KeyWrite) :
    s.retire (.ok (.keyOnly k)) =
      { s with keya := k.keya, keyb := k.keyb, keyinv := k.keyinv, keyv := k.keyv, errcode := .none, done := true,
               seq := .idle } := rfl

theorem exec_of_rule_res0Only (h : s.seq = .busy p n) (hr : ruleOf i p = .ok (.res0Only w)) :
    exec i s = .next { s with res0 := w, errcode := .none, done := true, seq := .idle } := by
  rw [exec_busy i h, hr, State.retire_res0Only]

theorem exec_of_rule_err {c : ErrCode} (h : s.seq = .busy p n) (hr : ruleOf i p = .err c) :
    exec i s = .next { s with errcode := c, done := true, seq := .idle } := by
  rw [exec_busy i h, hr, State.retire_err]

/-- Two snapshots on which the rule agrees give one completion. -/
theorem exec_congr_snapshot (h : s.seq = .busy p n) (hr : ruleOf i p = ruleOf i p') :
    exec i s = exec i { s with seq := .busy p' n } := by
  rw [exec_busy i h, exec_busy i (p := p') (n := n) rfl, hr]
  exact congrArg _ (s.retire_setSeq (.busy p' n) _).symm

/-! ### The rules of the decrypting commands by KEYV (R125, R129) -/

theorem decIdxRule_of_valid (hv : p.kv = true) :
    ruleOf .decIdx p = .ok (.res0Only (word (decIndex p (sext32 p.a)))) := by
  rw [ruleOf, decIdxRule, if_pos hv]

theorem decCharRule_of_valid (hv : p.kv = true) : ruleOf .decChar p = .ok (.res0Only (mapChar (decIndex p) p.a)) := by
  rw [ruleOf, decCharRule, if_pos hv]

theorem decRule_of_invalid (hi : i = .decIdx ∨ i = .decChar) (hv : p.kv = false) :
    ruleOf i p = .err .invalidKey := by
  obtain rfl | rfl := hi
  · rw [ruleOf, decIdxRule, hv, if_neg nofun]
  · rw [ruleOf, decCharRule, hv, if_neg nofun]

/-- A character command that completes without error maps its character by an index map. -/
theorem charRule_of_code_eq_none (hi : i = .encChar ∨ i = .decChar) (hc : (ruleOf i p).code = .none) :
    ∃ f, IsIndexMap f ∧ ruleOf i p = .ok (.res0Only (mapChar f p.a)) := by
  obtain rfl | rfl := hi
  · exact ⟨_, encIndex_isIndexMap p, rfl⟩
  cases hv : p.kv with
  | true => exact ⟨_, decIndex_isIndexMap p, decCharRule_of_valid hv⟩
  | false => rw [decRule_of_invalid (.inr rfl) hv] at hc; cases hc

end

/-! ### The completions (R121-R129) -/

/-- Settles O32, from the two keys KEYSET can make. -/
theorem keysetCompletion : Obligations.KeysetCompletion := by
  intro s p n h
  rw [exec_busy .keyset h, ruleOf, keysetRule, State.retire_keyOnly]
  refine ⟨fun hg => ?_, fun hg => ?_⟩
  · rw [keyFrom_of_g_eq_one p.b hg]
  · rw [keyFrom_of_g_ne_one p.b hg]

/-- Settles O33: both commands branch on g of EGCD(a, 26) and reduce the same coefficient. -/
theorem keysetInverseIsModinvOf26 : Obligations.KeysetInverseIsModinvOf26 := by
  intro s p n h
  obtain ⟨hvalid, hinvalid⟩ := keysetCompletion s p n h
  obtain ⟨herr, -, hok⟩ := modinvCompletion { s with seq := .busy { p with b := 26#32 } n } _ n rfl
  have hm : sext32 26#32 ≠ 0 := by decide
  by_cases hg : (egcd (sext32 p.a) 26).g = 1
  · exact ⟨_, _, hvalid hg, hok hg hm, fun _ => ⟨rfl, rfl⟩, iff_of_false nofun nofun, nofun⟩
  · exact ⟨_, _, hinvalid hg, herr hg, nofun, iff_of_true rfl rfl, nofun⟩

/-- Settles O34. -/
theorem encIdxCompletion : Obligations.EncIdxCompletion := fun _ _ _ h =>
  ⟨exec_of_rule_res0Only h rfl, toNat_word_fmod_modulus_le _⟩

/-- Settles O35: each operand is congruent to its residue. -/
theorem encIdxDependsOnResidues : Obligations.EncIdxDependsOnResidues := by
  intro s p n h
  have hres : fmod (fmod (sext32 p.ka) 26 * fmod (sext32 p.a) 26 + fmod (sext32 p.kb) 26) 26 =
      encIndex p (sext32 p.a) :=
    fmod_modulus_congr (((fmod_modulus_modEq _).mul (fmod_modulus_modEq _)).add (fmod_modulus_modEq _))
  rw [hres]
  exact exec_of_rule_res0Only h rfl

/-- Settles O36, by KEYV of the snapshot. -/
theorem decIdxCompletion : Obligations.DecIdxCompletion := fun _ _ _ h =>
  ⟨fun hv => exec_of_rule_err h (decRule_of_invalid (.inl rfl) hv),
    fun hv => ⟨exec_of_rule_res0Only h (decIdxRule_of_valid hv), toNat_word_fmod_modulus_le _⟩⟩

/-- Settles O37, by the class of the code. -/
theorem encCharCompletion : Obligations.EncCharCompletion := by
  intro s p n h
  have hexec := exec_of_rule_res0Only (i := .encChar) h rfl
  rw [hexec]
  refine ⟨fun hu => ?_, fun hl => ?_, fun hu hl => ?_⟩
  · rw [mapChar_of_letter (charClass_upper_iff.2 hu)]; rfl
  · rw [mapChar_of_letter (charClass_lower_iff.2 hl)]; rfl
  · rw [mapChar_of_nonLetter (charClass_eq_none hu hl)]

/-- Settles O38, by KEYV of the snapshot and then the class of the code. -/
theorem decCharCompletion : Obligations.DecCharCompletion := by
  intro s p n h
  have hexec (hv : p.kv = true) := exec_of_rule_res0Only h (decCharRule_of_valid hv)
  refine ⟨fun hv => exec_of_rule_err h (decRule_of_invalid (.inr rfl) hv), fun hv hu => ?_, fun hv hl => ?_,
    fun hv hu hl => ?_⟩ <;> rw [hexec hv]
  · rw [mapChar_of_letter (charClass_upper_iff.2 hu)]; rfl
  · rw [mapChar_of_letter (charClass_lower_iff.2 hl)]; rfl
  · rw [mapChar_of_nonLetter (charClass_eq_none hu hl)]

/-! ### Laws of the datapath (R126, R130-R132) -/

theorem sext32_word_encIndex (p : Snapshot) (q : Int) : sext32 (word (encIndex p q)) = encIndex p q :=
  sext32_word (fits32_fmod _ (by decide) rfl)

/-- Settles O39: the word of RES0 reads back as the index, and the inverse map undoes the map. -/
theorem indexRoundTrip : Obligations.IndexRoundTrip := by
  intro s p n h hk hv
  have hback : decIndex p (sext32 (word (encIndex p (sext32 p.a)))) = fmod (sext32 p.a) modulus := by
    rw [sext32_word_encIndex, decIndex_encIndex hk hv]
  refine ⟨_, _, exec_of_rule_res0Only h rfl, exec_of_rule_res0Only rfl (decIdxRule_of_valid hv), congrArg word hback,
    rfl, fun h0 h25 => ?_⟩
  calc word (decIndex p (sext32 (word (encIndex p (sext32 p.a)))))
      = word (sext32 p.a) := by rw [hback, fmod_modulus_of_index h0 h25]
    _ = p.a := word_sext32 p.a

/-- Settles O40: KEYSET's key satisfies the key invariant, so the index maps undo each other in every class. -/
theorem characterRoundTrip : Obligations.CharacterRoundTrip := by
  intro s k p n h hkeyset
  obtain rfl : s.retire (keysetRule p) = k := by simpa [exec_busy .keyset h, ruleOf] using hkeyset
  have hok : (s.retire (keysetRule p)).KeyInvariant := State.keyInvariant_of_key_eq_keyFrom (a := p.a) (b := p.b) rfl
  refine ⟨keyFrom_keyv_eq_true_iff, fun hv c b m => ?_, fun hv c b m => ?_⟩
  · refine ⟨_, _, exec_of_rule_res0Only rfl rfl, exec_of_rule_res0Only rfl (decCharRule_of_valid hv), ?_, rfl⟩
    refine mapChar_mapChar (encIndex_isIndexMap _) (fun q h0 h25 => ?_) c
    exact (decIndex_encIndex (p := (s.retire (keysetRule p)).latch 7#32) hok hv q).trans
      (fmod_modulus_of_index h0 h25)
  · exact ⟨_, exec_of_rule_err rfl (decRule_of_invalid (.inr rfl) hv), rfl⟩

/-- A new kb congruent to the old one leaves both index maps, and so the four rules, as they are. -/
theorem ruleOf_congr_kb {p : Snapshot} {kb' : Word} (hb : sext32 p.kb ≡ sext32 kb' [ZMOD 26]) :
    ∀ i ∈ [Instr.encIdx, .decIdx, .encChar, .decChar], ruleOf i p = ruleOf i { p with kb := kb' } := by
  have henc : encIndex p = encIndex { p with kb := kb' } := funext fun _ => encIndex_congr rfl hb rfl
  have hdec : decIndex p = decIndex { p with kb := kb' } := funext fun q => decIndex_congr_kb q rfl hb
  simp [ruleOf, encIdxRule, decIdxRule, encCharRule, decCharRule, henc, hdec]

theorem ruleOf_congr_ka {p : Snapshot} {ka' : Word} (ha : sext32 p.ka ≡ sext32 ka' [ZMOD 26]) :
    ∀ i ∈ [Instr.encIdx, .encChar], ruleOf i p = ruleOf i { p with ka := ka' } := by
  have henc : encIndex p = encIndex { p with ka := ka' } := funext fun _ => encIndex_congr ha rfl rfl
  simp [ruleOf, encIdxRule, encCharRule, henc]

/-- Settles O41: the rules agree on congruent keys; KEYSET tells 1 from -25, which is not positive. -/
theorem keyReductionModulo26 : Obligations.KeyReductionModulo26 := by
  refine ⟨fun s p n kb' h hb i hi => ?_, fun s p n ka' h ha i hi => ?_, 1#32, -25#32, 0#32, by decide, by decide,
    by decide⟩
  · exact exec_congr_snapshot h (ruleOf_congr_kb (Int.modEq_iff_dvd.2 hb).symm i hi)
  · exact exec_congr_snapshot h (ruleOf_congr_ka (Int.modEq_iff_dvd.2 ha).symm i hi)

/-- Settles O42: a character map keeps the class of every code. -/
theorem charactersKeepTheirCase : Obligations.CharactersKeepTheirCase := by
  intro s t p n i h hi hexec hcode
  obtain rfl : s.retire (ruleOf i p) = t := by simpa [exec_busy i h] using hexec
  rw [State.retire_errcode] at hcode
  obtain ⟨f, hf, hr⟩ := charRule_of_code_eq_none hi hcode
  have hclass := charClass_mapChar hf p.a
  rw [hr, State.retire_res0Only]
  exact ⟨fun hu => charClass_upper_iff.1 (hclass.trans (charClass_upper_iff.2 hu)),
    fun hl => charClass_lower_iff.1 (hclass.trans (charClass_lower_iff.2 hl)),
    fun hu hl => mapChar_of_nonLetter (charClass_eq_none hu hl)⟩

/-! ### Where the key changes (R120, R203) -/

/-- Settles O46: every other command and every edge without a completion keeps the key. -/
theorem keyChangesOnlyByKeyset : Obligations.KeyChangesOnlyByKeyset := by
  intro s t h hr hne
  have hkey : t.key ≠ s.key := by
    simpa only [Ne, State.key_eq_iff, not_and_or] using hne
  obtain ⟨-, -, -, hk⟩ | ⟨p, i, hs, hd, -, hw⟩ := step_registers_cases h hr
  · exact absurd hk hkey
  · have hi : i = .keyset := by_contra fun hi => hkey (hw.key_eq hi)
    exact ⟨p, hs, hi ▸ hd⟩

end Sys2Proof.Machine
end

section
/-! The control flow of a command (42_control.md R150-R153): the completing edge, what an error and an illegal word leave,
and that a command in flight arrives at its completion whatever the host does until then (R151, 20_memory.md R65,
70_reset_and_hazards.md R205). -/

namespace Sys2Proof.Machine

/-! ### An error completion (R152) -/

/-- A retirement with an error code writes no data or key register. -/
theorem State.retire_of_code_ne_none (s : State) {o : CmdOutcome} (h : o.code ≠ .none) :
    s.retire o = { s with errcode := o.code, done := true, seq := .idle } := by
  cases o with
  | ok w => exact absurd rfl h
  | err c => exact s.retire_err c

theorem complete_error_frame {rule : Snapshot → CmdOutcome} {s t : State} (h : complete rule s = .next t)
    (ht : t.errcode ≠ .none) : t = { s with errcode := t.errcode, done := true, seq := .idle } := by
  obtain ⟨p, -, -, rfl⟩ := (complete_eq_next_iff rule s t).1 h
  rw [State.retire_errcode] at ht ⊢
  exact s.retire_of_code_ne_none ht

/-! ### Registers over more than one edge -/

section
variable {s s' t t' : State} {w : Writes}

/-- Writes over registers that are those of an earlier state are the same writes over the earlier state. -/
theorem State.HasWrites.of_unchanged (h : t.HasWrites s w) (hs : s.HasWrites s' .nothing) : t.HasWrites s' w := by
  obtain ⟨h0, h1, h2, hk⟩ := h
  obtain ⟨e0, e1, e2, ek⟩ := hs
  exact ⟨h0.trans (congrArg _ e0), h1.trans (congrArg _ e1), h2.trans (congrArg _ e2), hk.trans (congrArg _ ek)⟩

/-- The same writes over the same registers leave the same registers. -/
theorem State.HasWrites.registers_eq (h : t.HasWrites s w) (h' : t'.HasWrites s w) :
    t.res0 = t'.res0 ∧ t.res1 = t'.res1 ∧ t.res2 = t'.res2 ∧ t.keya = t'.keya ∧ t.keyb = t'.keyb ∧
      t.keyinv = t'.keyinv ∧ t.keyv = t'.keyv := by
  obtain ⟨h0, h1, h2, hk⟩ := h
  obtain ⟨h0', h1', h2', hk'⟩ := h'
  exact ⟨h0.trans h0'.symm, h1.trans h1'.symm, h2.trans h2'.symm, State.key_eq_iff.1 (hk.trans hk'.symm)⟩

end

/-! ### One edge of a command in flight, with any host access (R151, 20_memory.md R56) -/

section
variable {s u : State} {p : Snapshot} {n : Nat}

/-- The edge without reset in terms of its label, the quiet one when none is listed (log 3). -/
theorem step_of_no_reset (hr : s.nextEdge.rst = false) (hu : enginePhase s = .next u) :
    step s = .next (hostAccess s s.nextEdge.act u).popEdge := by
  simp [step, runEdge, hr, hu, afterEngine]

/-- At the completing edge no access touches DONE: a clear loses against the completion, a command is dropped. -/
theorem hostAccess_done_of_completing (h : s.seq = .busy p 0) (act : HostAction) (t : State) :
    (hostAccess s act t).done = t.done := by
  obtain e | ⟨v, -, e⟩ | ⟨v, -, -, hc, -⟩ | ⟨v, -, e⟩ | ⟨v, -, e⟩ | ⟨v, -, e⟩ := hostAccess_cases s act t
  case inr.inr.inl =>
    rw [s.completes_of_left_zero p h] at hc
    cases hc
  case inr.inr.inr.inl => rw [e, issue_busy h, State.setDrop_done]
  all_goals simp [e]

/-- A waiting edge counts down and touches no data or key register. -/
theorem step_waiting (h : s.seq = .busy p (n + 1)) (hr : s.nextEdge.rst = false) :
    ∃ t, step s = .next t ∧ t.seq = .busy p n ∧ t.HasWrites s .nothing ∧ t.edges = s.edges.tail := by
  obtain ⟨-, -, -, -, hedges⟩ := hostAccess_frame s s.nextEdge.act (s.setSeq (.busy p n))
  exact ⟨_, step_of_no_reset hr (enginePhase_waiting h), hostAccess_seq_of_busy h _ _,
    (s.setSeq_hasWrites _).hostAccess_popEdge _ _, congrArg List.tail hedges⟩

/-- t is a state that outcome o of a command in flight in s leaves, as far as the outcome decides it. -/
def State.CompletedFrom (t s : State) (o : CmdOutcome) : Prop :=
  t.seq = .idle ∧ t.done = true ∧ t.errcode = o.code ∧ t.HasWrites s o.writes

theorem State.retire_completedFrom (s : State) (o : CmdOutcome) : (s.retire o).CompletedFrom s o :=
  ⟨s.retire_seq o, s.retire_done o, s.retire_errcode o, s.retire_hasWrites o⟩

/-- The completing edge, whatever the host does at it. -/
theorem step_completing (h : s.seq = .busy p 0) (hr : s.nextEdge.rst = false) :
    ∃ t, step s = .next t ∧ t.CompletedFrom s (wordRule p.cmd p) := by
  obtain ⟨hseq, hdone, herr, hw⟩ := s.retire_completedFrom (wordRule p.cmd p)
  exact ⟨_, step_of_no_reset hr (enginePhase_completing h), (hostAccess_seq_of_busy h _ _).trans hseq,
    (hostAccess_done_of_completing h _ _).trans hdone, (hostAccess_errcode_of_busy h _ _).trans herr,
    hw.hostAccess_popEdge _ _⟩

/-! ### The run up to the completion (70_reset_and_hazards.md R205) -/

theorem run_succ {t : State} (h : step s = .next t) (k : Nat) :
    Host.Core.run Sys2Proof.core (k + 1) s = Host.Core.run Sys2Proof.core k t := by
  have hcore : Sys2Proof.core.step s = .next t := h
  simp only [Host.Core.run, hcore]

/-- The next k + 1 edges have rst = 0: the coming one has, and so have the k after it. -/
theorem no_reset_succ {k : Nat} (h : ∀ e ∈ s.edges.take (k + 1), e.rst = false) :
    s.nextEdge.rst = false ∧ ∀ e ∈ s.edges.tail.take k, e.rst = false := by
  unfold State.nextEdge
  cases hs : s.edges with
  | nil => exact ⟨rfl, by simp⟩
  | cons e es => simpa [hs] using h

/-- By induction on the edges left: the waiting edges keep the registers the outcome is applied to. -/
theorem run_completes (h : s.seq = .busy p n) (hr : ∀ e ∈ s.edges.take (n + 1), e.rst = false) :
    ∃ t, Host.Core.run Sys2Proof.core (n + 1) s = .next t ∧ t.CompletedFrom s (wordRule p.cmd p) := by
  induction n generalizing s with
  | zero =>
    obtain ⟨t, hstep, ht⟩ := step_completing h (no_reset_succ hr).1
    exact ⟨t, run_succ hstep 0, ht⟩
  | succ n ih =>
    obtain ⟨hnext, hrest⟩ := no_reset_succ hr
    obtain ⟨u, hstep, hseq, hkept, hedges⟩ := step_waiting h hnext
    obtain ⟨t, hrun, hidle, hdone, herr, hw⟩ := ih hseq (hedges ▸ hrest)
    exact ⟨t, (run_succ hstep (n + 1)).trans hrun, hidle, hdone, herr, hw.of_unchanged hkept⟩

end

/-! ### The obligations -/

/-- Settles O24: NOP's outcome writes nothing. -/
theorem nopCompletion : Obligations.NopCompletion := fun _ _ _ h => exec_busy .nop h

/-- Settles O16: the engine's part at the completing edge is the decoded command's meaning. -/
theorem stepRunsDecodedCommand : Obligations.StepRunsDecodedCommand := by
  intro s p i act es hs hd he
  have hrule : wordRule p.cmd = ruleOf i := by simp only [wordRule, hd]
  rw [step_eq_of_enginePhase he (enginePhase_completing hs), exec_busy i hs, hrule]

/-- Settles O17: issue and waiting do not look at the word, and the word's rule is ILLEGAL_CMD. -/
theorem illegalWordCompletesWithIllegalCmd : Obligations.IllegalWordCompletesWithIllegalCmd := by
  intro s w es hw
  refine ⟨fun hs he => ?_, fun p n _ hs he => step_eq_of_enginePhase he (enginePhase_waiting hs), ?_⟩
  · obtain ⟨haccept, -, -⟩ := commandIssueAcceptedOrDropped s w es he
    obtain ⟨left, hstep⟩ := haccept hs
    exact ⟨_, left, hstep, rfl⟩
  · rintro p rfl hs he
    rw [step_eq_of_enginePhase he (enginePhase_completing hs), wordRule_of_ne_encode hw]
    rfl

/-- Settles O43: both completions are the common one, whose error case writes no register. -/
theorem errorCompletionWritesNothing : Obligations.ErrorCompletionWritesNothing :=
  ⟨fun i s _ h => complete_error_frame (exec_eq_complete i s ▸ h),
    fun w s _ h => complete_error_frame (completeWord_eq_complete w s ▸ h)⟩

/-- Settles O20: the run and the completion in the state of now make the same writes over the same registers. -/
theorem commandCompletesAfterItsLatency : Obligations.CommandCompletesAfterItsLatency := by
  intro s p n hs hr
  obtain ⟨t, hrun, hidle, hdone, herr, hw⟩ := run_completes hs hr
  exact ⟨t, _, hrun, completeWord_busy p.cmd s p n hs, hidle, hdone, herr.trans (s.retire_errcode _).symm,
    hw.registers_eq (s.retire_hasWrites _)⟩

/-- Settles O21: both runs end with the snapshot's outcome over the same registers. -/
theorem outcomeDependsOnSnapshotOnly : Obligations.OutcomeDependsOnSnapshotOnly := by
  intro s s' p n n' hs hs' hr hr' h0 h1 h2 ha hb hi hv
  obtain ⟨t, hrun, hidle, hdone, herr, hw⟩ := run_completes hs hr
  obtain ⟨t', hrun', hidle', hdone', herr', hw'⟩ := run_completes hs' hr'
  have hsame : s.HasWrites s' .nothing := ⟨h0, h1, h2, State.key_eq_iff.2 ⟨ha, hb, hi, hv⟩⟩
  obtain ⟨e0, e1, e2, ea, eb, ei, ev⟩ := (hw.of_unchanged hsame).registers_eq hw'
  exact ⟨t, t', hrun, hrun', e0, e1, e2, ea, eb, ei, ev, herr.trans herr'.symm, hdone.trans hdone'.symm,
    hidle.trans hidle'.symm⟩

end Sys2Proof.Machine
end

section
/-! Exceptional events (60_exceptions.md R160-R180): the order of reset, completion and host access at one edge, the
edges that raise and drop irq, which failing check is reported, and that no event stops the machine. -/

namespace Sys2Proof.Machine

section
variable {s : State} {act : HostAction} {es : List Edge}

/-! ### The reset edge (20_memory.md R56 step 1) -/

/-- Neither the state's registers nor the host access matter at a reset edge. -/
theorem step_reset (h : s.edges = ⟨true, act⟩ :: es) :
    step s = .next { State.reset with edges := es, accepted := s.accepted } := by
  simp [step, runEdge, State.nextEdge, h, resetEdge]

/-! ### The interrupt output (R170) -/

theorem State.irq_eq_true_iff (s : State) : s.irq = true ↔ s.ie = true ∧ s.done = true := by
  rw [State.irq, Bool.and_eq_true]

theorem State.irq_of_ie_eq_false (h : s.ie = false) : s.irq = false := by
  rw [State.irq, h, Bool.false_and]

theorem State.irq_of_done_eq_false (h : s.done = false) : s.irq = false := by
  rw [State.irq, h, Bool.and_false]

/-- The engine never clears DONE: an idle or waiting one keeps it, a completing one sets it. -/
theorem enginePhase_keeps_done (h : s.done = true) : ∃ u, enginePhase s = .next u ∧ u.done = true := by
  obtain ⟨-, hu⟩ | ⟨p, -, hu⟩ | ⟨p, n, -, hu⟩ := enginePhase_cases s
  · exact ⟨_, hu, h⟩
  · exact ⟨_, hu, s.retire_done _⟩
  · exact ⟨_, hu, h⟩

/-- With a command in flight only a CTRL write changes IE. -/
theorem hostAccess_ie_of_busy {p : Snapshot} {n : Nat} (h : s.seq = .busy p n) (hact : ∀ v, act ≠ .write 1#4 v)
    (t : State) : (hostAccess s act t).ie = t.ie := by
  obtain ⟨-, -, hie | ⟨v, hv⟩, -⟩ := hostAccess_flags_of_busy h act t
  · exact hie
  · exact absurd hv (hact v)

end

/-! ### The obligations -/

/-- Settles O12: the reset edge first, then at the completing edge the engine's part and the access of a BUSY state. -/
theorem simultaneousEventsOrder : Obligations.SimultaneousEventsOrder := by
  intro s act es
  refine ⟨step_reset, fun p he hs => ⟨_, _, completeWord_busy p.cmd s p 0 hs,
    step_eq_of_enginePhase he (enginePhase_completing hs), rfl, ?_, ?_, ?_⟩⟩
  · exact (hostAccess_done_of_completing hs act _).trans (s.retire_done _)
  · exact (hostAccess_seq_of_busy hs act _).trans (s.retire_seq _)
  · rintro v rfl
    rw [hostAccess, hostWrite_cmd, issue_busy hs]
    rfl

/-- Settles O14: each edge decides IE, DONE, or both. -/
theorem irqFollowsEnableAndDone : Obligations.IrqFollowsEnableAndDone := by
  intro s es
  refine ⟨s.irq_eq_true_iff, ?completion, ?enable, ?clear, ?acceptance, ?disable, ?reset⟩
  case completion =>
    intro p act hie hs he hact
    refine ⟨_, step_eq_of_enginePhase he (enginePhase_completing hs), (State.irq_eq_true_iff _).2 ⟨?_, ?_⟩⟩
    · exact (hostAccess_ie_of_busy hs hact _).trans ((s.retire_ie _).trans hie)
    · exact (hostAccess_done_of_completing hs act _).trans (s.retire_done _)
  case enable =>
    intro v hdone he hv
    obtain ⟨u, hu, hud⟩ := enginePhase_keeps_done hdone
    exact ⟨_, step_eq_of_enginePhase he hu, (State.irq_eq_true_iff _).2 ⟨hv, hud⟩⟩
  case clear =>
    intro v hc he hv
    obtain ⟨_, hstep, -, -⟩ := step_write he
    rw [hostWrite_status, if_pos ⟨hv, hc⟩] at hstep
    exact ⟨_, hstep, State.irq_of_done_eq_false rfl⟩
  case acceptance =>
    intro v hs he
    obtain ⟨_, hstep, -, -⟩ := step_write he
    rw [hostWrite_cmd, issue_idle hs] at hstep
    exact ⟨_, hstep, State.irq_of_done_eq_false rfl⟩
  case disable =>
    intro v he hv
    obtain ⟨_, hstep, -, -⟩ := step_write he
    exact ⟨_, hstep, State.irq_of_ie_eq_false hv⟩
  case reset =>
    intro act he
    exact ⟨_, step_reset he, State.irq_of_ie_eq_false rfl⟩

/-- Settles O22: a reset edge answers, and without reset the engine answers in each of its cases. -/
theorem everyStepAnswersNext : Obligations.EveryStepAnswersNext := by
  intro s
  cases hr : s.nextEdge.rst with
  | true => exact ⟨resetEdge s, by rw [step, runEdge, if_pos hr]⟩
  | false =>
    obtain ⟨u, hu, -⟩ := enginePhase_labels s
    exact ⟨_, step_of_no_reset hr hu⟩

/-- Settles O44: the error of each rule's first check; EGCD's check never fails (egcdNeverOverflows). -/
theorem firstFailingCheckIsReported : Obligations.FirstFailingCheckIsReported := by
  intro s p n hs
  refine ⟨fun hw => ?_, fun hg _ => ?_, fun hv i hi => ?_, ?_⟩
  · refine ⟨_, completeWord_busy p.cmd s p n hs, ?_⟩
    rw [State.retire_errcode, wordRule_of_ne_encode hw, CmdOutcome.code]
  · exact ⟨_, exec_of_rule_err (i := .modinv) hs (modinvRule_of_g_ne_one hg), rfl⟩
  · exact ⟨_, exec_of_rule_err hs (decRule_of_invalid hi hv), rfl⟩
  · obtain ⟨_, hexec, rfl, -⟩ := egcdNeverOverflows s p n hs
    exact ⟨_, hexec, .inl rfl⟩

/-- Settles O18: the engine's part of an idle and of a waiting edge is the whole step. -/
theorem quietEdgeHoldsStateOrWaits : Obligations.QuietEdgeHoldsStateOrWaits := fun _ _ he =>
  ⟨fun hs => step_eq_of_enginePhase he (enginePhase_idle hs),
    fun _ _ hs => step_eq_of_enginePhase he (enginePhase_waiting hs)⟩

end Sys2Proof.Machine
end

section
/-! Reset and hazards (70_reset_and_hazards.md R190-R205): what the reset state reads as, the edge that enters it, and a
CMD write at the edge right after an accepted one. -/

namespace Sys2Proof.Machine

/-! ### The reset state (R190) -/

theorem State.reset_rdata_of_ne_id : ∀ i : RegIndex, i ≠ Reg.id.index → State.reset.rdata i = 0#32 := by
  decide

/-! ### A CMD write in IDLE and in BUSY (R201, 20_memory.md R57) -/

section
variable {s : State} {p : Snapshot} {n : Nat} {w : Word} {es : List Edge}

/-- A CMD write in IDLE puts its own snapshot in flight. -/
theorem step_cmd_write_idle (h : s.seq = .idle) (he : s.edges = ⟨false, .write 3#4 w⟩ :: es) :
    ∃ t, step s = .next t ∧ t.seq = .busy (s.latch w) (s.freeLatency w) ∧ t.edges = es := by
  have hstep := step_eq_of_enginePhase he (enginePhase_idle h)
  rw [hostAccess, hostWrite_cmd, issue_idle h] at hstep
  exact ⟨_, hstep, rfl, rfl⟩

/-- What the engine leaves in flight was in flight with the same snapshot: it waits or completes, and never issues. -/
theorem enginePhase_snapshot (h : s.seq = .busy p n) :
    ∃ u, enginePhase s = .next u ∧ ∀ q m, u.seq = .busy q m → q = p := by
  cases n with
  | zero =>
    refine ⟨_, enginePhase_completing h, fun q m hq => ?_⟩
    rw [State.retire_seq] at hq
    cases hq
  | succ n =>
    refine ⟨_, enginePhase_waiting h, fun q m hq => ?_⟩
    cases hq
    rfl

/-- A CMD write in BUSY is dropped, whether the edge is a waiting or the completing one. -/
theorem step_cmd_write_busy (h : s.seq = .busy p n) (he : s.edges = ⟨false, .write 3#4 w⟩ :: es) :
    ∃ u, step s = .next u ∧ u.drop = true ∧ ∀ q m, u.seq = .busy q m → q = p := by
  obtain ⟨u, hu, hsnap⟩ := enginePhase_snapshot h
  have hstep := step_eq_of_enginePhase he hu
  rw [hostAccess, hostWrite_cmd, issue_busy h] at hstep
  exact ⟨_, hstep, rfl, hsnap⟩

end

/-! ### The obligations -/

/-- Settles O15: the first write leaves BUSY with its own snapshot, for every free latency, and so the second is a CMD
write in BUSY. -/
theorem secondCommandAtNextEdgeIsDropped : Obligations.SecondCommandAtNextEdgeIsDropped := by
  intro s v w es hs he
  obtain ⟨t, hfirst, hseq, hedges⟩ := step_cmd_write_idle hs he
  obtain ⟨u, hsecond, hdrop, hsnap⟩ := step_cmd_write_busy hseq hedges
  exact ⟨t, u, hfirst, t.rdata_status_bit0.trans (t.busy_of_seq_busy _ _ hseq), hsecond, hdrop, hsnap⟩

/-- Settles O13: the readings by index, and a reset edge looks neither at the registers nor at the host access. -/
theorem resetValuesAndResetEdge : Obligations.ResetValuesAndResetEdge :=
  ⟨⟨rfl, State.reset_rdata_of_ne_id, rfl, rfl⟩, fun _ _ _ => step_reset rfl⟩

/-- Settles O52: no command is in flight at reset. -/
theorem inFlightInvariantsAtReset : Obligations.InFlightInvariantsAtReset :=
  State.inFlightInvariants_of_seq_idle rfl

end Sys2Proof.Machine
end
